-- ==== Sys2Proof/Word.lean ====
section
/-! DEFINITION. The word types of the block (spec/00_scope.md R8, R9, R11; spec/30_encoding.md R80). -/

namespace Sys2Proof

/-- One payload byte, or any `bits8` / `int8` / `uint8`. -/
abbrev Byte := BitVec 8

/-- A `bits32` / `int32` / `uint32`: a CAN id, a raw field, a return code. -/
abbrev Word := BitVec 32

/-- The bit pattern of an IEEE 754 binary32 value (R11). -/
abbrev F32 := BitVec 32

/-- An 8-byte CAN payload: byte `i` is bits `8i+7 : 8i` (R9). -/
abbrev Payload := BitVec 64

/-- The 192-bit command record `CR`; `W0 = CR[63:0]`, `W1 = CR[127:64]`, `W2 = CR[191:128]` (R80). -/
abbrev Record := BitVec 192

end Sys2Proof
end

