-- ==== Sys2Proof/Config.lean ====
section
/-! DEFINITION. What an implementation fixes (spec/00_scope.md R6, R7; spec/43_pdu_crc8.md R210), as plain data, and
the free values: opaque constants that no proof can evaluate. -/

namespace Sys2Proof

/-- `ID_BUILD` (R6). -/
inductive IdBuild
  | extended
  | classic
  deriving DecidableEq, Repr

/-- `param_kind` of a parameter index (R6, R15). -/
inductive ParamKind
  | tunable
  | test
  | spot
  deriving DecidableEq, Repr

/-- A scaled field of a PDU (R210); `var` names the typed variable it is bound to. -/
structure PduField where
  bpos : Nat
  width : Nat
  sg : Bool
  factor : F32
  offset : F32
  var : Nat
  deriving DecidableEq, Repr

/-- A rolling counter of a PDU (R210). -/
structure PduCounter where
  bpos : Nat
  width : Nat
  modulus : Word
  deriving DecidableEq, Repr

/-- A CRC-8 of a PDU (R210); `user` says that a user compute function is present (`Config.crcUser`). -/
structure PduCrc where
  bpos : Nat
  width : Nat
  init : Byte
  poly : Byte
  user : Bool
  deriving DecidableEq, Repr

/-- One element of a PDU schema (R210). -/
inductive Element
  | field (e : PduField)
  | counter (e : PduCounter)
  | crc8 (e : PduCrc)
  deriving DecidableEq, Repr

/-- `pdu_schema[k]`: a public CAN id and an ordered list of elements (R210). -/
structure Schema where
  cid : Word
  elems : List Element
  deriving DecidableEq, Repr

/-- The implementation parameters (R6). `PARAM_LAST` is the number of parameter kinds, `NUM_PDUS` the number of
schemas. They are fixed for a run: no step changes them. -/
structure Params where
  maxMessages : Nat
  maxItems : Nat
  idBuild : IdBuild
  paramKinds : List ParamKind
  pduUnpackGated : Bool
  schemas : List Schema
  deriving DecidableEq, Repr

/-- `PARAM_LAST` (R6). -/
def Params.paramLast (c : Params) : Nat := c.paramKinds.length

/-- `NUM_PDUS` (R6). -/
def Params.numPdus (c : Params) : Nat := c.schemas.length

/-- The example schema of spec/95_test_vectors.md section 4.2. -/
def exampleSchema : Schema :=
  { cid := 0x3A0#32
    elems :=
      [.field { bpos := 0, width := 16, sg := false, factor := 0x3F000000#32, offset := 0xC2200000#32, var := 0 },
       .field { bpos := 16, width := 12, sg := true, factor := 0x3F800000#32, offset := 0#32, var := 1 },
       .counter { bpos := 48, width := 4, modulus := 16#32 },
       .crc8 { bpos := 56, width := 8, init := 0xFF#8, poly := 0x1D#8, user := false }] }

/-- DESIGN CHOICE (notes/assumptions/2.md), unsafe if a claim rests on it: the configuration `State.reset` carries.
R6 leaves every value OPEN; these are the ones spec/95_test_vectors.md computes its vectors with. -/
def Params.example : Params :=
  { maxMessages := 4
    maxItems := 8
    idBuild := .extended
    paramKinds := [.tunable, .tunable, .tunable, .tunable, .tunable, .spot, .tunable, .tunable,
      .tunable, .tunable, .tunable, .tunable, .tunable, .tunable, .tunable, .tunable]
    pduUnpackGated := false
    schemas := [exampleSchema] }

/-- The f32 operations whose result can be a NaN (spec/00_scope.md R11). -/
inductive F32Op
  | add
  | sub
  | mul
  | div
  deriving DecidableEq, Repr

/-- `oob_draw` (R12): a free int32, one for each evaluation; the argument is the number of the draw. -/
opaque Config.oobDraw : Nat → Word

/-- The answer of `ParamRead(idx)` when none waits at the port (spec/10_state.md R40): free, by the number of the draw. -/
opaque Config.paramRead : Nat → BitVec 16 → F32

/-- The answer of `VarRead(k, v)` when none waits at the port (R40): free, by the number of the draw. -/
opaque Config.varRead : Nat → Byte → Nat → F32

/-- What a readback shows of a field the spec leaves unspecified (R41, R43): free, by the number of the draw. -/
opaque Config.unspecified : Nat → BitVec 64

/-- The sign and payload bits of a NaN result (R11 names IEEE 754, which leaves them open): free, a function of the
operation and its operands. -/
opaque Config.nanBits : F32Op → F32 → F32 → F32

/-- `crc_user[k]` (R6, R212): the user compute function of PDU `k`, where its schema says one is present. -/
opaque Config.crcUser : Nat → Payload → Byte → Byte → Byte

end Sys2Proof
end

