-- ==== Sys2Proof/Machine/Float.lean ====
section
/-! DEFINITION. The f32 operations: IEEE binary32, each one exact operation rounded once, to nearest, ties to even
(spec/00_scope.md R11), and the float-to-integer conversions (R12). A finite f32 is an integer number of units of
2^-149, so every exact result is a ratio of natural numbers, and `f32Magnitude` is the only place that rounds. -/

namespace Sys2Proof.Machine

/-- The sign bit. -/
def f32Sign (a : F32) : Bool := a.getLsbD 31

/-- The biased exponent field. -/
def f32Exp (a : F32) : Nat := (a.extractLsb' 23 8).toNat

/-- The fraction field. -/
def f32Frac (a : F32) : Nat := (a.extractLsb' 0 23).toNat

/-- Not a number. -/
def f32IsNaN (a : F32) : Bool := decide (f32Exp a = 255) && decide (f32Frac a ≠ 0)

/-- An infinity of either sign. -/
def f32IsInf (a : F32) : Bool := decide (f32Exp a = 255) && decide (f32Frac a = 0)

/-- The magnitude of a finite f32, in units of 2^-149. -/
def f32Units (a : F32) : Nat :=
  if f32Exp a = 0 then f32Frac a else (f32Frac a + 2 ^ 23) * 2 ^ (f32Exp a - 1)

/-- The value of a finite f32, in units of 2^-149. -/
def f32Int (a : F32) : Int := if f32Sign a then -(f32Units a : Int) else (f32Units a : Int)

/-- `num / den` to the nearest integer, ties to even. -/
def roundHalfEven (num den : Nat) : Nat :=
  let q := num / den
  let r := num % den
  if 2 * r < den then q else if den < 2 * r then q + 1 else q + q % 2

/-- The f32 bits, without the sign, of the value `num / den` rounded once. With `e` the exponent of the result's last
place (in units of 2^-149), the bits are `e * 2^23` plus the rounded significand: a carry out of the significand moves
into the exponent by itself, and everything from 0x7F800000 up is infinity. -/
def f32Magnitude (num den : Nat) : Nat :=
  let e := Nat.log2 (num * 2 ^ 149 / den) - 23
  min (e * 2 ^ 23 + roundHalfEven (num * 2 ^ 149) (den * 2 ^ e)) 0x7F800000

/-- A sign and the bits below it. -/
def f32Pack (neg : Bool) (mag : Nat) : F32 :=
  BitVec.ofNat 32 ((if neg then 2 ^ 31 else 0) + mag)

/-- The quiet NaN with sign 0 and payload 0. -/
def f32QuietNaN : F32 := 0x7FC00000#32

/-- An infinity. -/
def f32Inf (neg : Bool) : F32 := f32Pack neg 0x7F800000

/-- Whether `a` is a NaN other than `f32QuietNaN`. -/
def f32OtherNaN (a : F32) : Bool := f32IsNaN a && decide (a ≠ f32QuietNaN)

/-- The NaN that an operation gives. DEDUCED from the vector of spec/95_test_vectors.md section 3.1: where the only NaN
operands are `f32QuietNaN`, the result is it. Otherwise a quiet NaN whose sign and payload are free
(notes/assumptions/10.md). -/
def f32NaN (op : F32Op) (a b : F32) : F32 :=
  if (f32IsNaN a || f32IsNaN b) && !f32OtherNaN a && !f32OtherNaN b then f32QuietNaN
  else f32QuietNaN ||| Config.nanBits op a b

/-- The sum of two operands that are not NaNs; `op` names the operation for its NaN. -/
def f32Sum (op : F32Op) (a b : F32) : F32 :=
  if f32IsInf a then
    if f32IsInf b && (f32Sign a != f32Sign b) then f32NaN op a b else a
  else if f32IsInf b then b
  else
    let z := f32Int a + f32Int b
    if z = 0 then f32Pack (f32Sign a && f32Sign b) 0
    else f32Pack (decide (z < 0)) (f32Magnitude z.natAbs (2 ^ 149))

/-- The other sign. -/
def f32Neg (a : F32) : F32 := a ^^^ 0x80000000#32

/-- `f32_add(a, b)` (R11). -/
def f32Add (a b : F32) : F32 :=
  if f32IsNaN a || f32IsNaN b then f32NaN .add a b else f32Sum .add a b

/-- `f32_sub(a, b)` (R11). -/
def f32Sub (a b : F32) : F32 :=
  if f32IsNaN a || f32IsNaN b then f32NaN .sub a b else f32Sum .sub a (f32Neg b)

/-- `f32_mul(a, b)` (R11). -/
def f32Mul (a b : F32) : F32 :=
  let neg := f32Sign a != f32Sign b
  if f32IsNaN a || f32IsNaN b then f32NaN .mul a b
  else if f32IsInf a || f32IsInf b then
    if (!f32IsInf a && f32Units a == 0) || (!f32IsInf b && f32Units b == 0) then f32NaN .mul a b else f32Inf neg
  else f32Pack neg (f32Magnitude (f32Units a * f32Units b) (2 ^ 149 * 2 ^ 149))

/-- `f32_div(a, b)` (R11). -/
def f32Div (a b : F32) : F32 :=
  let neg := f32Sign a != f32Sign b
  if f32IsNaN a || f32IsNaN b then f32NaN .div a b
  else if f32IsInf a then
    if f32IsInf b then f32NaN .div a b else f32Inf neg
  else if f32IsInf b then f32Pack neg 0
  else if f32Units b = 0 then
    if f32Units a = 0 then f32NaN .div a b else f32Inf neg
  else f32Pack neg (f32Magnitude (f32Units a) (f32Units b))

/-- `i2f(x)`: the nearest f32, ties to even (R11). -/
def i2f (x : Int) : F32 := f32Pack (decide (x < 0)) (f32Magnitude x.natAbs 1)

/-- An integer as an int32 if it is one, else the draw (R12). -/
def int32Or (draw : Word) (v : Int) : Word :=
  if -(2 ^ 31) ≤ v ∧ v < 2 ^ 31 then BitVec.ofInt 32 v else draw

/-- Attach a sign to a magnitude. -/
def signed (neg : Bool) (m : Nat) : Int := if neg then -(m : Int) else (m : Int)

/-- `f2i_trunc(a)`: toward zero; `draw` is the evaluation's `oob_draw` (R12). -/
def f2iTrunc (draw : Word) (a : F32) : Word :=
  if f32IsNaN a || f32IsInf a then draw
  else int32Or draw (signed (f32Sign a) (f32Units a / 2 ^ 149))

/-- `f2i_round(a)`: to nearest, halfway cases away from zero; `draw` is the evaluation's `oob_draw` (R12). -/
def f2iRound (draw : Word) (a : F32) : Word :=
  if f32IsNaN a || f32IsInf a then draw
  else int32Or draw (signed (f32Sign a) ((f32Units a + 2 ^ 148) / 2 ^ 149))

end Sys2Proof.Machine
end

