-- ==== Sys2Proof/Syntax.lean ====
section
/-! DEFINITION. The 18 commands of the block and their operands (spec/30_encoding.md R81 to R86). -/

namespace Sys2Proof

/-- The field an FX command names: position `pos`, width `n = wm1 + 1`, byte order `be` (R81, R85). -/
structure FieldRef where
  pos : Nat
  width : Nat
  be : Bool
  deriving DecidableEq, Repr

/-- Which ID table: `tbl` = 0 is transmit, 1 is receive (R82; spec/10_state.md R24). -/
inductive Table
  | tx
  | rx
  deriving DecidableEq, Repr

/-- The operands of MAP.ADDRX and MAP.ADDTX (R82). `id` is the public CAN id, `nb` the signed bit length whose
sign is the byte order, `gain` an f32 pattern, `ofs` an int8 pattern. -/
structure Binding where
  id : Word
  param : BitVec 16
  bpos : Byte
  nb : Byte
  sg : Bool
  gain : F32
  ofs : Byte
  deriving DecidableEq, Repr

/-- The commands, one constructor for each row of spec/opcode_table.json (R86). -/
inductive Instr
  | fxGet (p : Payload) (f : FieldRef) (sg : Bool)
  | fxOr (p : Payload) (f : FieldRef) (val : Word)
  | fxIns (p : Payload) (f : FieldRef) (val : Word)
  | fxDec (p : Payload) (f : FieldRef) (sg : Bool) (gain : F32) (ofs : Byte)
  | fxEnc (p : Payload) (f : FieldRef) (val : F32) (gain : F32) (ofs : Byte)
  | frameRx (id : Word) (p : Payload) (dlc : BitVec 4)
  | frameTxall
  | mapAddrx (b : Binding)
  | mapAddtx (b : Binding)
  | mapRm (param : BitVec 16)
  | mapClr
  | mapRereg
  | mapRde (tbl : Table) (idx : BitVec 16)
  | mapRds (idx : BitVec 16)
  | pduPack (k : Byte)
  | pduUnpack (k : Byte) (p : Payload)
  | pduStat (k : Byte)
  | crc8Calc (p : Payload) (init : Byte) (poly : Byte)
  deriving DecidableEq, Repr

end Sys2Proof
end

