-- ==== Sys2Proof/Machine/State.lean ====
section
/-! DEFINITION. The state of the block (spec/10_state.md), the reasons a step can stop, and the state after reset. -/

namespace Sys2Proof.Machine

/-- An ID entry, `CANIDMAP` (R23). `written` is the model's own: false until the entry is written, while R43 leaves
`id` unspecified (notes/assumptions/5.md). -/
structure IdEntry where
  id : Word
  first : BitVec 16
  written : Bool
  deriving DecidableEq, Repr

/-- A slot, `CANPOS` (R26). `written` is the model's own: false until the cell is allocated, while R43 leaves every
field but `next` unspecified (notes/assumptions/5.md). -/
structure Slot where
  param : BitVec 16
  gain : F32
  ofs : Byte
  bpos : Byte
  nb : Byte
  sg : Bool
  next : Byte
  written : Bool
  deriving DecidableEq, Repr

/-- The state of one PDU: transmit counter, last received counter, verdict of the last unpack (R32). -/
structure PduState where
  txc : Word
  rxc : Word
  crcOk : Bool
  deriving DecidableEq, Repr

/-- Why a protocol fault was raised (spec/60_exceptions.md R252). -/
inductive PfReason
  | mutateWhileSaving
  | paramRange
  deriving DecidableEq, Repr

/-- The value of a parameter write: `Fixed(int32)` or `Float(f32)` (R40; spec/41_frame.md R143). -/
inductive ParamValue
  | fixed (v : Word)
  | float (v : F32)
  deriving DecidableEq, Repr

/-- The output events (R40). -/
inductive Event
  | send (id d0 d1 : Word) (len : BitVec 4)
  | filter (id : Word)
  | paramWrite (idx : BitVec 16) (v : ParamValue)
  | varWrite (k : Byte) (v : Nat) (x : F32)
  deriving DecidableEq, Repr

/-- What arrives at the block's inputs between two steps: a command record at the command port (R40), a new level of
`save_busy` (R41), or the reset event (spec/70_reset_and_hazards.md R280). -/
inductive Input
  | command (cr : Record)
  | saveBusy (level : Bool)
  | reset
  deriving DecidableEq, Repr

/-- The state of the block, its configuration and its ports. -/
structure State where
  /-- The implementation parameters (spec/00_scope.md R6): fixed for a run. -/
  cfg : Params
  /-- Result register `RC` (R20). -/
  rc : Word
  /-- Result register `RV` (R20). -/
  rv : Word
  /-- Result register `RF` (R20). -/
  rf : F32
  /-- Result register `RP` (R20). -/
  rp : Payload
  /-- Result register `OK` (R20). -/
  ok : Bool
  /-- The transmit table (R24). -/
  txm : List IdEntry
  /-- The receive table (R24). -/
  rxm : List IdEntry
  /-- The slot pool `pos[0 .. MAX_ITEMS]` (R27). -/
  pool : List Slot
  /-- `txc`, `rxc`, `crc_ok` of every PDU (R32). -/
  pdus : List PduState
  /-- The sticky protocol-fault bit (R33). -/
  pf : Bool
  /-- Its reason (R33). -/
  pfReason : Option PfReason
  /-- The level of `save_busy` (R41). -/
  saveBusy : Bool
  /-- Inputs that have not been taken yet, oldest first (R40, R67). -/
  inputs : List Input
  /-- The output history, oldest first (R40). -/
  events : List Event
  /-- Answers waiting at the ParamRead oracle, oldest first (R40). -/
  paramAnswers : List F32
  /-- Answers waiting at the VarRead oracle, oldest first (R40). -/
  varAnswers : List F32
  /-- The model's own: how many free values have been drawn (notes/assumptions/8.md). -/
  draws : Nat
  deriving DecidableEq, Repr

/-- Why the block takes no further step. -/
inductive Fault
  /-- Raised by `step` when a command waits at the port while `pf = 1`: the block accepts no command until reset
  (spec/60_exceptions.md R252). Safe: the model admits no run past a protocol fault. -/
  | protocolFault (reason : Option PfReason)
  deriving DecidableEq, Repr

/-- Why the model gives a state no step. -/
inductive Refusal
  /-- Raised by `exec` for an instruction that has no meaning yet. Safe. -/
  | notModelled (mnemonic : String)
  /-- Raised by `step` where the configuration is one the spec refuses (spec/00_scope.md R7; spec/43_pdu_crc8.md
  R210). Safe: no run has such a configuration. -/
  | illFormedConfiguration
  deriving DecidableEq, Repr

/-- What a meaning answers. -/
abbrev Result := Host.Outcome State Fault Refusal

/-- `ITEM_UNSET`, the link of a free cell (R27). -/
def itemUnset : Byte := 0xFF#8

/-- An entry after reset: empty, its id unspecified (R43). -/
def IdEntry.atReset (c : Params) : IdEntry :=
  { id := 0#32, first := BitVec.ofNat 16 c.maxItems, written := false }

/-- A slot after reset: only its link is specified (R43). -/
def Slot.atReset (link : Byte) : Slot :=
  { param := 0#16, gain := 0#32, ofs := 0#8, bpos := 0#8, nb := 0#8, sg := false, next := link, written := false }

/-- The state of a PDU after reset (R43). -/
def PduState.atReset : PduState := { txc := 0#32, rxc := 0#32, crcOk := false }

/-- The reset table of R43 for any configuration, with nothing pending at the ports. -/
def State.resetWith (c : Params) : State :=
  { cfg := c
    rc := 0#32
    rv := 0#32
    rf := 0#32
    rp := 0#64
    ok := false
    txm := List.replicate c.maxMessages (IdEntry.atReset c)
    rxm := List.replicate c.maxMessages (IdEntry.atReset c)
    pool := List.replicate c.maxItems (Slot.atReset itemUnset) ++ [Slot.atReset (BitVec.ofNat 8 c.maxItems)]
    pdus := List.replicate c.schemas.length PduState.atReset
    pf := false
    pfReason := none
    saveBusy := false
    inputs := []
    events := []
    paramAnswers := []
    varAnswers := []
    draws := 0 }

/-- The block right after reset, in the configuration of spec/95_test_vectors.md (notes/assumptions/2.md). -/
def State.reset : State := State.resetWith Params.example

end Sys2Proof.Machine
end

