-- ==== Sys2Proof/Machine/Operands.lean ====
section
/-! DEFINITION. The operand forms: reading and writing a field of a payload, its integer interpretation and scaling
(spec/40_codec.md R100 to R107; spec/43_pdu_crc8.md R217), and the forms of a CAN id (spec/41_frame.md R140). -/

namespace Sys2Proof.Machine

/-- `mask_n = 2^n - 1`, on the payload's 64 bits (spec/00_scope.md R10). -/
def mask64 (n : Nat) : Payload := BitVec.ofNat 64 (2 ^ n - 1)

/-- `mask_n`, on 32 bits (R10). -/
def mask32 (n : Nat) : Word := BitVec.ofNat 32 (2 ^ n - 1)

/-- Byte `i` of a payload, `P[8i+7:8i]` (R9). -/
def payloadByte (p : Payload) (i : Nat) : Byte := p.extractLsb' (8 * i) 8

/-- `bswap64(P)`: byte `i` of the result is byte `7 - i` of `P` (R10). -/
def bswap64 (p : Payload) : Payload :=
  payloadByte p 0 ++ (payloadByte p 1 ++ (payloadByte p 2 ++ (payloadByte p 3 ++
    (payloadByte p 4 ++ (payloadByte p 5 ++ (payloadByte p 6 ++ payloadByte p 7))))))

/-- `sprime(p) = 8 * (7 - p div 8) + (p mod 8)` (R101). -/
def sprime (p : Nat) : Nat := 8 * (7 - p / 8) + p % 8

/-- A payload value moved to the field's place in its view; bits with no place are dropped (R102, R103). In the
reversed view the field's low bit is at `sprime(p) - n + 1`, which may lie below bit 0. -/
def placeBits (u : Payload) (f : FieldRef) : Payload :=
  if f.be then
    if f.width ≤ sprime f.pos + 1 then u <<< (sprime f.pos + 1 - f.width) else u >>> (f.width - (sprime f.pos + 1))
  else u <<< f.pos

/-- The view's bits moved down to bit 0 from the field's place; bits with no place read as 0 (R102). -/
def fetchBits (v : Payload) (f : FieldRef) : Payload :=
  if f.be then
    if f.width ≤ sprime f.pos + 1 then v >>> (sprime f.pos + 1 - f.width) else v <<< (f.width - (sprime f.pos + 1))
  else v >>> f.pos

/-- The payload as the field's byte order sees it: itself, or the reversed view (R101). -/
def fieldView (p : Payload) (be : Bool) : Payload := if be then bswap64 p else p

/-- `get(P, p, n, be)`: the raw field (R102). -/
def getField (p : Payload) (f : FieldRef) : Word :=
  (fetchBits (fieldView p f.be) f &&& mask64 f.width).setWidth 32

/-- `put_or(P, p, n, be, v)`: OR the low `n` bits of `v` into the field (R103). -/
def putOr (p : Payload) (f : FieldRef) (v : Word) : Payload :=
  fieldView (fieldView p f.be ||| placeBits (v.setWidth 64 &&& mask64 f.width) f) f.be

/-- `insert(P, p, n, be, v)`: replace the field's bits (R104). -/
def insertField (p : Payload) (f : FieldRef) (v : Word) : Payload :=
  (p &&& ~~~(putOr 0#64 f (mask32 f.width))) ||| putOr 0#64 f v

/-- `sext_n(raw) = ((raw + 2^(n-1)) & mask_n) - 2^(n-1)` (R10). -/
def sextField (raw : Word) (n : Nat) : Int :=
  (((raw.toNat + 2 ^ (n - 1)) % 2 ^ n : Nat) : Int) - 2 ^ (n - 1)

/-- `ival(raw, n, sg)`: sign-extended if signed and wider than one bit (R105). -/
def ival (raw : Word) (n : Nat) (sg : Bool) : Int :=
  if sg && decide (1 < n) then sextField raw n else (raw.toNat : Int)

/-- `lowbits_n(x)` of an int32, as a uint32 (R10). -/
def lowBits (n : Nat) (x : Word) : Word := x &&& mask32 n

/-- `c4_dec(x, ofs, gain) = (x + ofs) * gain` (R106). -/
def c4Dec (x : Int) (ofs : Byte) (gain : F32) : F32 := f32Mul (f32Add (i2f x) (i2f ofs.toInt)) gain

/-- `c4_enc(val, gain, ofs, n)`: `val * gain + ofs`, truncated, its low `n` bits (R107). -/
def c4Enc (draw : Word) (val gain : F32) (ofs : Byte) (n : Nat) : Word :=
  lowBits n (f2iTrunc draw (f32Add (f32Mul val gain) (i2f ofs.toInt)))

/-- `c6_enc(v, e)`: `round((v - offset) / factor)`, its low `n` bits (R217). -/
def c6Enc (draw : Word) (v : F32) (e : PduField) : Word :=
  lowBits e.width (f2iRound draw (f32Div (f32Sub v e.offset) e.factor))

/-- `c6_dec(x, e) = x * factor + offset` (R217). -/
def c6Dec (x : Int) (e : PduField) : F32 := f32Add (f32Mul (i2f x) e.factor) e.offset

/-- `repr(idx, v)` by the parameter's kind: `Fixed(round(v * 32))`, or `Float(v)` for a spot value
(spec/41_frame.md R143). -/
def storageForm (draw : Word) (kind : ParamKind) (v : F32) : ParamValue :=
  match kind with
  | .spot => .float v
  | .tunable => .fixed (f2iRound draw (f32Mul v 0x42000000#32))
  | .test => .fixed (f2iRound draw (f32Mul v 0x42000000#32))

/-- A little-endian range of a PDU, as a field (R210). -/
def leField (bpos width : Nat) : FieldRef := { pos := bpos, width := width, be := false }

/-- `n(s) = |s.nb|` for a signed length (spec/10_state.md R28). -/
def nbWidth (nb : Byte) : Nat := nb.toInt.natAbs

/-- The field of a slot: width `|nb|`, big-endian when `nb < 0` (R28). -/
def Slot.field (s : Slot) : FieldRef := { pos := s.bpos.toNat, width := nbWidth s.nb, be := s.nb.msb }

/-- `FORCE_PUB = 0x20000000` (R140). -/
def forcePub : Word := 0x20000000#32

/-- `FBIT`: where the stored form keeps the force flag (spec/10_state.md R29). -/
def forceBit : IdBuild → Nat
  | .extended => 29
  | .classic => 11

/-- The stored form's force flag as a mask. -/
def forceMask (b : IdBuild) : Word := BitVec.ofNat 32 (2 ^ forceBit b)

/-- `pnum(a) = a & ~FORCE_PUB` (R140). -/
def pnum (a : Word) : Word := a &&& ~~~forcePub

/-- `pforce(a) = a[29]` (R140). -/
def pforce (a : Word) : Bool := a.getLsbD 29

/-- `canon(id)`: the stored id without its force flag (R29). -/
def canon (b : IdBuild) (id : Word) : Word := id &&& ~~~forceMask b

/-- `force_of(id) = id[FBIT]` (R29). -/
def forceOf (b : IdBuild) (id : Word) : Bool := id.getLsbD (forceBit b)

/-- `stored(a) = pnum(a) | (pforce(a) << FBIT)` (R140). -/
def storedId (b : IdBuild) (a : Word) : Word := pnum a ||| (if pforce a then forceMask b else 0#32)

/-- `pub(id) = canon(id) | (force_of(id) << 29)` (R140). -/
def pubId (b : IdBuild) (id : Word) : Word := canon b id ||| (if forceOf b id then forcePub else 0#32)

/-- The largest numeric id of a build (spec/42_map_admin.md R170). -/
def maxNum : IdBuild → Nat
  | .extended => 0x1FFFFFFF
  | .classic => 0x7FF

end Sys2Proof.Machine
end

