-- ==== Sys2Proof/Machine/Schema.lean ====
section
/-! DEFINITION. What a PDU schema holds, and which configurations the spec defines the block for
(spec/00_scope.md R6, R7; spec/43_pdu_crc8.md R210). -/

namespace Sys2Proof

/-- The rolling counter of a schema, if it has one. -/
def Schema.counter? (sc : Schema) : Option PduCounter :=
  sc.elems.findSome? fun
    | .counter e => some e
    | _ => none

/-- The CRC-8 element of a schema, if it has one. -/
def Schema.crc? (sc : Schema) : Option PduCrc :=
  sc.elems.findSome? fun
    | .crc8 e => some e
    | _ => none

/-- A bit range that fits the payload: `1 ≤ n ≤ 32`, `bpos ≤ 63`, `bpos + n ≤ 64` (R210). -/
def rangeFits (bpos width : Nat) : Bool :=
  decide (1 ≤ width) && decide (width ≤ 32) && decide (bpos ≤ 63) && decide (bpos + width ≤ 64)

/-- The element's own part of R210: its range fits, and a counter's modulus is at least 1. -/
def Element.wf : Element → Bool
  | .field e => rangeFits e.bpos e.width
  | .counter e => rangeFits e.bpos e.width && decide (1 ≤ e.modulus.toNat)
  | .crc8 e => rangeFits e.bpos e.width

/-- Whether an element is a counter. -/
def Element.isCounter : Element → Bool
  | .counter _ => true
  | _ => false

/-- Whether an element is a CRC-8. -/
def Element.isCrc : Element → Bool
  | .crc8 _ => true
  | _ => false

/-- A well-formed schema (R210): every range fits, at most one counter and one CRC, every modulus at least 1, and the
id without its force flag at most `0x1FFFFFFF`. -/
def Schema.wf (sc : Schema) : Bool :=
  sc.elems.all Element.wf && decide (sc.elems.countP Element.isCounter ≤ 1) &&
    decide (sc.elems.countP Element.isCrc ≤ 1) && decide ((sc.cid &&& 0xDFFFFFFF#32).toNat ≤ 0x1FFFFFFF)

/-- A configuration the spec defines the block for (R6, R7, R210). -/
def Params.wf (c : Params) : Bool :=
  decide (1 ≤ c.maxMessages) && decide (c.maxMessages ≤ 65535) &&
    decide (1 ≤ c.maxItems) && decide (c.maxItems ≤ 254) &&
    decide (1 ≤ c.paramLast) && decide (c.paramLast ≤ 65536) &&
    decide (c.numPdus ≤ 256) && c.schemas.all Schema.wf

end Sys2Proof
end

