-- ==== Sys2Proof/Machine/Flags.lean ====
section
/-! DEFINITION. The return codes (spec/60_exceptions.md R251) and the CRC-8 and its verdict, the value of `OK` and
`crc_ok` (spec/43_pdu_crc8.md R211, R212, R214). -/

namespace Sys2Proof.Machine

/-- `E_INVALID_ID` = -1 (R251). -/
def eInvalidId : Word := BitVec.ofInt 32 (-1)

/-- `E_INVALID_OFS` = -2 (R251). -/
def eInvalidOfs : Word := BitVec.ofInt 32 (-2)

/-- `E_INVALID_LEN` = -3 (R251). -/
def eInvalidLen : Word := BitVec.ofInt 32 (-3)

/-- `E_MAXMESSAGES` = -4 (R251). -/
def eMaxMessages : Word := BitVec.ofInt 32 (-4)

/-- `E_MAXITEMS` = -5 (R251). -/
def eMaxItems : Word := BitVec.ofInt 32 (-5)

/-- `E_OPCODE` = -16 (R251). -/
def eOpcode : Word := BitVec.ofInt 32 (-16)

/-- `E_INDEX` = -17 (R251). -/
def eIndex : Word := BitVec.ofInt 32 (-17)

/-- One shift of the CRC register: XOR the polynomial when the bit shifted out is 1 (R211). -/
def crcShift (poly c : Byte) : Byte := if c.msb then (c <<< 1) ^^^ poly else c <<< 1

/-- One payload byte into the CRC register: XOR, then eight shifts (R211). -/
def crcByte (poly c b : Byte) : Byte := (crcShift poly)^[8] (c ^^^ b)

/-- `crc8_default(P, init, poly)`: bytes 0 to 7 in order (R211). -/
def crc8Default (p : Payload) (init poly : Byte) : Byte :=
  (List.range 8).foldl (fun c i => crcByte poly c (payloadByte p i)) init

/-- `crc8_elem(P, e)`: the user function where it is present, else the default (R212). -/
def crc8Elem (k : Nat) (p : Payload) (e : PduCrc) : Byte :=
  if e.user then Config.crcUser k p e.init e.poly else crc8Default p e.init e.poly

/-- The CRC range zeroed, then the CRC of the whole payload deposited in it (R213). -/
def depositCrc (k : Nat) (p : Payload) (e : PduCrc) : Payload :=
  let z := insertField p (leField e.bpos e.width) 0#32
  insertField z (leField e.bpos e.width) ((crc8Elem k z e).setWidth 32)

/-- Whether the received CRC is the low `n` bits of the CRC of the payload with its CRC range zeroed (R214). -/
def crcMatches (k : Nat) (p : Payload) (e : PduCrc) : Bool :=
  let q := insertField p (leField e.bpos e.width) 0#32
  decide (getField p (leField e.bpos e.width) = lowBits e.width ((crc8Elem k q e).setWidth 32))

/-- The verdict of an unpack: 1 where the schema has no CRC (R214). -/
def unpackVerdict (k : Nat) (p : Payload) (sc : Schema) : Bool :=
  match sc.crc? with
  | some e => crcMatches k p e
  | none => true

end Sys2Proof.Machine
end

