-- ==== Sys2Proof/Machine/Ops.lean ====
section
/-! DEFINITION. The named operations over the state: result registers, events, the two tables, the slot pool, the PDU
state, the oracles, and raising a protocol fault (spec/10_state.md; spec/60_exceptions.md R252). -/

namespace Sys2Proof.Machine

/-- `RC <- v` (R20). -/
def State.setRc (s : State) (v : Word) : State := { s with rc := v }

/-- `RV <- v` (R20). -/
def State.setRv (s : State) (v : Word) : State := { s with rv := v }

/-- `RF <- v` (R20). -/
def State.setRf (s : State) (v : F32) : State := { s with rf := v }

/-- `RP <- v` (R20). -/
def State.setRp (s : State) (v : Payload) : State := { s with rp := v }

/-- `OK <- v` (R20). -/
def State.setOk (s : State) (v : Bool) : State := { s with ok := v }

/-- Append events to the output history (R40). -/
def State.emit (s : State) (es : List Event) : State := { s with events := s.events ++ es }

/-- `raise ProtocolFault(reason)`: `pf` and its reason, and nothing else (R252). -/
def State.raise (s : State) (r : PfReason) : State := { s with pf := true, pfReason := some r }

/-- Count `n` free values as drawn. -/
def State.useDraws (s : State) (n : Nat) : State := { s with draws := s.draws + n }

/-- Take `n` answers from the ParamRead port (R40). -/
def State.useParamAnswers (s : State) (n : Nat) : State := { s with paramAnswers := s.paramAnswers.drop n }

/-- Take `n` answers from the VarRead port (R40). -/
def State.useVarAnswers (s : State) (n : Nat) : State := { s with varAnswers := s.varAnswers.drop n }

/-- Replace a table (R24). -/
def State.setTable (s : State) (t : Table) (l : List IdEntry) : State :=
  match t with
  | .tx => { s with txm := l }
  | .rx => { s with rxm := l }

/-- Replace the slot pool (R27). -/
def State.setPool (s : State) (l : List Slot) : State := { s with pool := l }

/-- Replace the PDU state (R32). -/
def State.setPdus (s : State) (l : List PduState) : State := { s with pdus := l }

/-- A new level of `save_busy` (R41). -/
def State.setSaveBusy (s : State) (b : Bool) : State := { s with saveBusy := b }

/-- The inputs still pending. -/
def State.setInputs (s : State) (l : List Input) : State := { s with inputs := l }

/-- A table (R24). -/
def State.table (s : State) (t : Table) : List IdEntry :=
  match t with
  | .tx => s.txm
  | .rx => s.rxm

/-- Whether an entry is empty: `first = MAX_ITEMS` (R25). -/
def State.isEmpty (s : State) (e : IdEntry) : Bool := e.first.toNat == s.cfg.maxItems

/-- `count(T)`: the number of non-empty entries (R25). -/
def State.count (s : State) (t : Table) : Nat := (s.table t).countP fun e => !s.isEmpty e

/-- Entry `i` of a table. -/
def State.entry (s : State) (t : Table) (i : Nat) : IdEntry := ((s.table t)[i]?).getD (IdEntry.atReset s.cfg)

/-- Cell `j` of the pool. -/
def State.slot (s : State) (j : Nat) : Slot := (s.pool[j]?).getD (Slot.atReset itemUnset)

/-- The live entries of a table, `0 .. count(T) - 1` (R25). -/
def State.live (s : State) (t : Table) : List IdEntry := (s.table t).take (s.count t)

/-- Follow the links from cell `j`, at most `fuel` cells, up to the first index that is no allocatable cell (R30). -/
def State.walk (s : State) : Nat → Nat → List Nat
  | 0, _ => []
  | fuel + 1, j => if j < s.cfg.maxItems then j :: s.walk fuel (s.slot j).next.toNat else []

/-- The slots of an entry in list order, at most `MAX_ITEMS` (R30). -/
def State.slotsOf (s : State) (e : IdEntry) : List Nat := s.walk s.cfg.maxItems e.first.toNat

/-- The end-of-list link (R27). -/
def State.endLink (s : State) : Byte := BitVec.ofNat 8 s.cfg.maxItems

/-- The least live entry whose canonical id is `num` (R141, R171). -/
def State.find (s : State) (t : Table) (num : Word) : Option Nat :=
  (s.live t).findIdx? fun e => canon s.cfg.idBuild e.id == num

/-- The least free cell (R171). -/
def State.freeCell (s : State) : Option Nat :=
  (s.pool.take s.cfg.maxItems).findIdx? fun c => c.next == itemUnset

/-- `param_kind(idx)` (R6). -/
def State.kind (s : State) (idx : BitVec 16) : ParamKind := (s.cfg.paramKinds[idx.toNat]?).getD .tunable

/-- The state of PDU `k` (R32). -/
def State.pdu (s : State) (k : Nat) : PduState := (s.pdus[k]?).getD PduState.atReset

/-- The `oob_draw` of the `m`-th conversion of a command (R12). -/
def State.oobDraw (s : State) (m : Nat) : Word := Config.oobDraw (s.draws + m)

/-- The answer to the `m`-th ParamRead of a command: the one waiting at the port, else a free value (R40). -/
def State.paramRead (s : State) (m : Nat) (idx : BitVec 16) : F32 :=
  (s.paramAnswers[m]?).getD (Config.paramRead (s.draws + m) idx)

/-- The answer to the `m`-th VarRead of a command (R40). -/
def State.varRead (s : State) (m : Nat) (k : Byte) (v : Nat) : F32 :=
  (s.varAnswers[m]?).getD (Config.varRead (s.draws + m) k v)

/-- `validate(a, bpos, nb)`: the first error that applies, or none (R170). -/
def validate (c : Params) (b : Binding) : Option Word :=
  let n := nbWidth b.nb
  let p := b.bpos.toNat
  if n = 0 ∨ 32 < n then some eInvalidLen
  else if 63 < p then some eInvalidOfs
  else if b.nb.msb = false ∧ 64 < p + n then some eInvalidOfs
  else if b.nb.msb = true ∧ sprime p + 1 < n then some eInvalidOfs
  else if maxNum c.idBuild < (pnum b.id).toNat then some eInvalidId
  else none

/-- The slot a binding makes, at the end of its list (R171). -/
def bindingSlot (b : Binding) (link : Byte) : Slot :=
  { param := b.param, gain := b.gain, ofs := b.ofs, bpos := b.bpos, nb := b.nb, sg := b.sg, next := link, written := true }

/-- What an insertion does (R171): a protocol fault, an error code, or a new map. -/
inductive AddOutcome
  | fault (r : PfReason)
  | error (code : Word)
  | done (s : State)
  deriving DecidableEq, Repr

/-- Cell `j` takes the binding, and is linked at the tail of entry `i`, or as a new entry at `count(T)` (R171). -/
def State.link (s : State) (t : Table) (b : Binding) (i : Option Nat) (j : Nat) : State :=
  let s1 := s.setPool (s.pool.set j (bindingSlot b s.endLink))
  match i with
  | none =>
    s1.setTable t ((s.table t).set (s.count t)
      { id := storedId s.cfg.idBuild b.id, first := BitVec.ofNat 16 j, written := true })
  | some i =>
    match (s1.slotsOf (s1.entry t i)).getLast? with
    | none => s1
    | some last => s1.setPool (s1.pool.set last { s1.slot last with next := BitVec.ofNat 8 j })

/-- `add(T, a, param, bpos, nb, sg, gain, ofs)`, up to its result code (R171, R255). -/
def State.add (s : State) (t : Table) (b : Binding) : AddOutcome :=
  if s.saveBusy then .fault .mutateWhileSaving
  else if s.cfg.paramLast ≤ b.param.toNat then .fault .paramRange
  else
    match validate s.cfg b with
    | some e => .error e
    | none =>
      if s.find t (pnum b.id) = none ∧ s.count t = s.cfg.maxMessages then .error eMaxMessages
      else
        match s.freeCell with
        | none => .error eMaxItems
        | some j => .done (s.link t b (s.find t (pnum b.id)) j)

/-- Within one list, the first cell that names `param`, with the cell before it (R174). -/
def State.findInList (s : State) (param : BitVec 16) : Option Nat → List Nat → Option (Option Nat × Nat)
  | _, [] => none
  | prev, j :: js => if (s.slot j).param = param then some (prev, j) else s.findInList param (some j) js

/-- Where a slot to remove stands: its table, entry index, the cell before it in the list, and the cell (R174). -/
structure SlotPlace where
  tbl : Table
  entry : Nat
  prev : Option Nat
  cell : Nat
  deriving DecidableEq, Repr

/-- Within some entries of a table, the first from index `i` on, the first slot that names `param` (R174). -/
def State.findInEntries (s : State) (t : Table) (param : BitVec 16) : Nat → List IdEntry → Option SlotPlace
  | _, [] => none
  | i, e :: es =>
    match s.findInList param none (s.slotsOf e) with
    | some (prev, j) => some { tbl := t, entry := i, prev := prev, cell := j }
    | none => s.findInEntries t param (i + 1) es

/-- The first slot that names `param`: the transmit table before the receive table (R174). -/
def State.findSlot (s : State) (param : BitVec 16) : Option SlotPlace :=
  match s.findInEntries .tx param 0 (s.live .tx) with
  | some pl => some pl
  | none => s.findInEntries .rx param 0 (s.live .rx)

/-- The cell is taken out of its list and freed (R174). -/
def State.unlink (s : State) (pl : SlotPlace) : State :=
  let link := (s.slot pl.cell).next
  let s1 :=
    match pl.prev with
    | none => s.setTable pl.tbl ((s.table pl.tbl).set pl.entry { s.entry pl.tbl pl.entry with first := link.setWidth 16 })
    | some q => s.setPool (s.pool.set q { s.slot q with next := link })
  s1.setPool (s1.pool.set pl.cell { s1.slot pl.cell with next := itemUnset })

/-- An emptied entry is filled with the last live entry, whose own place becomes empty; `c` is the count before the
removal (R174). -/
def State.compact (s : State) (t : Table) (i c : Nat) : State :=
  let l := if i = c - 1 then s.table t else (s.table t).set i (s.entry t (c - 1))
  s.setTable t (l.set (c - 1) { s.entry t (c - 1) with first := BitVec.ofNat 16 s.cfg.maxItems })

/-- The slot is removed, and its entry too when it has become empty (R174). -/
def State.removeSlot (s : State) (pl : SlotPlace) : State :=
  let s1 := s.unlink pl
  if s1.isEmpty (s1.entry pl.tbl pl.entry) then s1.compact pl.tbl pl.entry (s.count pl.tbl) else s1

/-- Every entry empty, every allocatable cell free; ids and the other slot fields stay (R175). -/
def State.clearMap (s : State) : State :=
  { s with
    txm := s.txm.map fun e => { e with first := BitVec.ofNat 16 s.cfg.maxItems }
    rxm := s.rxm.map fun e => { e with first := BitVec.ofNat 16 s.cfg.maxItems }
    pool := (s.pool.take s.cfg.maxItems).map (fun c => { c with next := itemUnset }) ++ s.pool.drop s.cfg.maxItems }

/-- The id a readback shows: a free value where the entry was never written since reset (R43, R177). -/
def State.shownId (s : State) (e : IdEntry) : Word :=
  if e.written then e.id else (Config.unspecified s.draws).setWidth 32

/-- The slot a readback shows: every field but the link is a free value in a cell never written since reset, and
`param` is one while `save_busy = 1` (R41, R43, R178). -/
def State.shownSlot (s : State) (c : Slot) : Slot :=
  let u := Config.unspecified s.draws
  if c.written then
    if s.saveBusy then { c with param := u.extractLsb' 0 16 } else c
  else
    { c with
      param := u.extractLsb' 0 16
      ofs := u.extractLsb' 16 8
      bpos := u.extractLsb' 24 8
      nb := u.extractLsb' 32 8
      sg := u.getLsbD 40
      gain := (Config.unspecified (s.draws + 1)).setWidth 32 }

/-- The state after a reset event: the table of R43. The level of `save_busy`, the inputs and answers still waiting
and the output history belong to the other agents and stay (spec/70_reset_and_hazards.md R280). -/
def State.afterReset (s : State) : State :=
  { State.resetWith s.cfg with
    saveBusy := s.saveBusy
    inputs := s.inputs
    events := s.events
    paramAnswers := s.paramAnswers
    varAnswers := s.varAnswers
    draws := s.draws }

end Sys2Proof.Machine
end

