-- ==== Sys2Proof/Machine/Frame.lean ====
section
/-! DEFINITION. The frame commands FRAME.RX and FRAME.TXALL (spec/41_frame.md R142, R144). -/

namespace Sys2Proof.Machine

/-- The ParamWrite of slot `j` for payload `p`, the command's `m`-th (R142, R143). -/
def slotWrite (s : State) (p : Payload) (m j : Nat) : Event :=
  let c := s.slot j
  let x := ival (getField p c.field) (nbWidth c.nb) c.sg
  .paramWrite c.param (storageForm (s.oobDraw m) (s.kind c.param) (c4Dec x c.ofs c.gain))

/-- One ParamWrite for each slot, in list order, numbered from `m` (R142). -/
def slotWrites (s : State) (p : Payload) : Nat → List Nat → List Event
  | _, [] => []
  | m, j :: js => slotWrite s p m j :: slotWrites s p (m + 1) js

/-- FRAME.RX: decode a received frame (R142). `dlc` is not read (R147). -/
def execFrameRx (id : Word) (p : Payload) (_dlc : BitVec 4) (s : State) : Result :=
  if s.saveBusy then .next (s.setRc 0#32)
  else
    match s.find .rx (pnum id) with
    | none => .next (s.setRc 0#32)
    | some i =>
      let js := s.slotsOf (s.entry .rx i)
      .next (((s.emit (slotWrites s p 0 js)).useDraws js.length).setRc (BitVec.ofNat 32 js.length))

/-- The raw field slot `j` deposits, from the command's `m`-th ParamRead (R144). -/
def slotRaw (s : State) (m j : Nat) : Word :=
  let c := s.slot j
  c4Enc (s.oobDraw m) (s.paramRead m c.param) c.gain c.ofs (nbWidth c.nb)

/-- The payload of an entry: each slot's raw field ORed in, reads numbered from `m` (R144). -/
def entryPayload (s : State) : Nat → List Nat → Payload → Payload
  | _, [], p => p
  | m, j :: js, p => entryPayload s (m + 1) js (putOr p (s.slot j).field (slotRaw s m j))

/-- `Send(pub(id), P[31:0], P[63:32], 8)` (R144). -/
def sendEvent (b : IdBuild) (id : Word) (p : Payload) : Event :=
  .send (pubId b id) (p.extractLsb' 0 32) (p.extractLsb' 32 32) 8#4

/-- One Send for each entry, in index order, reads numbered from `m` (R144). -/
def entrySends (s : State) : Nat → List IdEntry → List Event
  | _, [] => []
  | m, e :: es =>
    sendEvent s.cfg.idBuild e.id (entryPayload s m (s.slotsOf e) 0#64) ::
      entrySends s (m + (s.slotsOf e).length) es

/-- How many parameters a transmit round reads (R144). -/
def entryReads (s : State) : List IdEntry → Nat
  | [] => 0
  | e :: es => (s.slotsOf e).length + entryReads s es

/-- FRAME.TXALL: encode and send every transmit frame (R144). -/
def execFrameTxall (s : State) : Result :=
  if s.saveBusy then .next (s.setRc 0#32)
  else
    let n := entryReads s (s.live .tx)
    .next ((((s.emit (entrySends s 0 (s.live .tx))).useDraws n).useParamAnswers n).setRc
      (BitVec.ofNat 32 (s.count .tx)))

end Sys2Proof.Machine
end

