-- ==== Sys2Proof/Machine/Fx.lean ====
section
/-! DEFINITION. The codec commands FX.* (spec/40_codec.md R110 to R114). They read only their operands. -/

namespace Sys2Proof.Machine

/-- FX.GET: read a field (R110). -/
def execFxGet (p : Payload) (f : FieldRef) (sg : Bool) (s : State) : Result :=
  .next ((s.setRv (BitVec.ofInt 32 (ival (getField p f) f.width sg))).setRc 0#32)

/-- FX.OR: OR-deposit a field (R111). -/
def execFxOr (p : Payload) (f : FieldRef) (val : Word) (s : State) : Result :=
  .next ((s.setRp (putOr p f val)).setRc 0#32)

/-- FX.INS: write a field, replacing its bits (R112). -/
def execFxIns (p : Payload) (f : FieldRef) (val : Word) (s : State) : Result :=
  .next ((s.setRp (insertField p f val)).setRc 0#32)

/-- FX.DEC: read a field and scale it as the receive path does (R113). -/
def execFxDec (p : Payload) (f : FieldRef) (sg : Bool) (gain : F32) (ofs : Byte) (s : State) : Result :=
  .next (((s.setRv (BitVec.ofInt 32 (ival (getField p f) f.width sg))).setRf
    (c4Dec (ival (getField p f) f.width sg) ofs gain)).setRc 0#32)

/-- FX.ENC: scale a value as the transmit path does and OR-deposit it (R114). Its one conversion takes one draw. -/
def execFxEnc (p : Payload) (f : FieldRef) (val gain : F32) (ofs : Byte) (s : State) : Result :=
  let raw := c4Enc (s.oobDraw 0) val gain ofs f.width
  .next ((((s.setRp (putOr p f raw)).setRv raw).setRc 0#32).useDraws 1)

end Sys2Proof.Machine
end

