-- ==== Sys2Proof/Machine/Map.lean ====
section
/-! DEFINITION. Signal map administration MAP.* (spec/42_map_admin.md R170 to R178). -/

namespace Sys2Proof.Machine

/-- MAP.ADDRX: bind a parameter to a receive frame field; on success register the id (R172). -/
def execMapAddrx (b : Binding) (s : State) : Result :=
  match s.add .rx b with
  | .fault r => .next (s.raise r)
  | .error code => .next (s.setRc code)
  | .done t => .next ((t.setRc (BitVec.ofNat 32 (t.count .rx))).emit [.filter b.id])

/-- MAP.ADDTX: bind a parameter to a transmit frame field; no filter (R173). -/
def execMapAddtx (b : Binding) (s : State) : Result :=
  match s.add .tx b with
  | .fault r => .next (s.raise r)
  | .error code => .next (s.setRc code)
  | .done t => .next (t.setRc (BitVec.ofNat 32 (t.count .tx)))

/-- MAP.RM: remove the first slot bound to a parameter (R174). -/
def execMapRm (param : BitVec 16) (s : State) : Result :=
  if s.saveBusy then .next (s.raise .mutateWhileSaving)
  else
    match s.findSlot param with
    | none => .next (s.setRc 0#32)
    | some pl => .next ((s.removeSlot pl).setRc 1#32)

/-- MAP.CLR: clear the whole map (R175). -/
def execMapClr (s : State) : Result :=
  if s.saveBusy then .next (s.raise .mutateWhileSaving) else .next (s.clearMap.setRc 0#32)

/-- MAP.REREG: one Filter for each receive entry, in index order (R176). -/
def execMapRereg (s : State) : Result :=
  .next ((s.emit ((s.live .rx).map fun e => .filter (pubId s.cfg.idBuild e.id))).setRc
    (BitVec.ofNat 32 (s.count .rx)))

/-- MAP.RDE: read an ID entry back (R177). -/
def execMapRde (tbl : Table) (idx : BitVec 16) (s : State) : Result :=
  if s.cfg.maxMessages ≤ idx.toNat then .next (s.setRc eIndex)
  else
    let e := s.entry tbl idx.toNat
    .next ((((s.setRv (s.shownId e)).setRp (e.first.setWidth 64)).setRc 0#32).useDraws 1)

/-- `RV` of MAP.RDS: nb, next, param (R178). -/
def slotWordRv (c : Slot) : Word := (c.nb ++ c.next) ++ c.param

/-- `RP` of MAP.RDS: sg, ofs, bpos, zero-extended (R178). -/
def slotWordRp (c : Slot) : Payload := ((BitVec.ofBool c.sg ++ c.ofs) ++ c.bpos).setWidth 64

/-- MAP.RDS: read a slot back (R178). -/
def execMapRds (idx : BitVec 16) (s : State) : Result :=
  if s.cfg.maxItems < idx.toNat then .next (s.setRc eIndex)
  else
    let c := s.shownSlot (s.slot idx.toNat)
    .next (((((s.setRv (slotWordRv c)).setRp (slotWordRp c)).setRf c.gain).setRc 0#32).useDraws 2)

end Sys2Proof.Machine
end

