-- ==== Sys2Proof/Machine/Pdu.lean ====
section
/-! DEFINITION. The PDU and CRC commands (spec/43_pdu_crc8.md R213 to R216). -/

namespace Sys2Proof.Machine

/-- What packing has built so far: the payload, the transmit counter, and how many variables it has read. -/
structure PackAcc where
  payload : Payload
  txc : Word
  reads : Nat
  deriving DecidableEq, Repr

/-- `(c + 1) mod modulus` (R213). -/
def nextCount (c modulus : Word) : Word := BitVec.ofNat 32 ((c.toNat + 1) % modulus.toNat)

/-- One element packed: a field from its variable, the counter advanced and then written; the CRC comes last (R213). -/
def packElement (s : State) (k : Byte) (acc : PackAcc) (e : Element) : PackAcc :=
  match e with
  | .field e =>
    { acc with
      payload := putOr acc.payload (leField e.bpos e.width) (c6Enc (s.oobDraw acc.reads) (s.varRead acc.reads k e.var) e)
      reads := acc.reads + 1 }
  | .counter e =>
    { acc with
      payload := putOr acc.payload (leField e.bpos e.width) (nextCount acc.txc e.modulus)
      txc := nextCount acc.txc e.modulus }
  | .crc8 _ => acc

/-- Every element packed, in order (R213). -/
def packElements (s : State) (k : Byte) (sc : Schema) : PackAcc :=
  sc.elems.foldl (packElement s k) { payload := 0#64, txc := (s.pdu k.toNat).txc, reads := 0 }

/-- The payload with its CRC, where the schema has one (R213). -/
def sealPayload (k : Nat) (sc : Schema) (p : Payload) : Payload :=
  match sc.crc? with
  | some e => depositCrc k p e
  | none => p

/-- PDU.PACK: build the payload of PDU `k` (R213). -/
def execPduPack (k : Byte) (s : State) : Result :=
  match s.cfg.schemas[k.toNat]? with
  | none => .next (s.setRc eIndex)
  | some sc =>
    let acc := packElements s k sc
    let s1 := s.setPdus (s.pdus.set k.toNat { s.pdu k.toNat with txc := acc.txc })
    .next (((((s1.setRp (sealPayload k.toNat sc acc.payload)).setRv sc.cid).setRc 0#32).useDraws acc.reads).useVarAnswers
      acc.reads)

/-- The VarWrite of a field (R214). -/
def fieldWrite (k : Byte) (p : Payload) (e : PduField) : Event :=
  .varWrite k e.var (c6Dec (ival (getField p (leField e.bpos e.width)) e.width e.sg) e)

/-- The VarWrite events of a payload, in schema order (R214). -/
def fieldWrites (k : Byte) (p : Payload) (sc : Schema) : List Event :=
  sc.elems.filterMap fun e =>
    match e with
    | .field e => some (fieldWrite k p e)
    | .counter _ => none
    | .crc8 _ => none

/-- The counter stored by an unpack: the received value, or the old one where the schema has no counter (R214). -/
def receivedCount (p : Payload) (sc : Schema) (old : Word) : Word :=
  sc.elems.foldl
    (fun c e =>
      match e with
      | .counter e => getField p (leField e.bpos e.width)
      | .field _ => c
      | .crc8 _ => c)
    old

/-- PDU.UNPACK: decode a payload of PDU `k` and validate its CRC (R214). -/
def execPduUnpack (k : Byte) (p : Payload) (s : State) : Result :=
  match s.cfg.schemas[k.toNat]? with
  | none => .next (s.setRc eIndex)
  | some sc =>
    let ok := unpackVerdict k.toNat p sc
    let writes := ok || !s.cfg.pduUnpackGated
    let d := s.pdu k.toNat
    let rxc := if writes then receivedCount p sc d.rxc else d.rxc
    let s1 := s.setPdus (s.pdus.set k.toNat { d with rxc := rxc, crcOk := ok })
    .next (((s1.emit (if writes then fieldWrites k p sc else [])).setOk ok).setRc (if ok then 1#32 else 0#32))

/-- PDU.STAT: read the counters and verdict of PDU `k` (R215). -/
def execPduStat (k : Byte) (s : State) : Result :=
  if s.cfg.numPdus ≤ k.toNat then .next (s.setRc eIndex)
  else
    let d := s.pdu k.toNat
    .next ((((s.setRv d.txc).setRp (d.rxc.setWidth 64)).setOk d.crcOk).setRc 0#32)

/-- CRC8.CALC: the default CRC-8 of a payload (R216). -/
def execCrc8Calc (p : Payload) (init poly : Byte) (s : State) : Result :=
  .next ((s.setRv ((crc8Default p init poly).setWidth 32)).setRc 0#32)

end Sys2Proof.Machine
end

