-- ==== Sys2Proof/Machine/Dispatch.lean ====
section
/-! DEFINITION. One arm for each command (spec/30_encoding.md R86). -/

namespace Sys2Proof.Machine

def exec (i : Instr) (s : State) : Host.Outcome State Fault Refusal :=
  match i with
  | .fxGet p f sg => Sys2Proof.Machine.execFxGet p f sg s
  | .fxOr p f val => Sys2Proof.Machine.execFxOr p f val s
  | .fxIns p f val => Sys2Proof.Machine.execFxIns p f val s
  | .fxDec p f sg gain ofs => Sys2Proof.Machine.execFxDec p f sg gain ofs s
  | .fxEnc p f val gain ofs => Sys2Proof.Machine.execFxEnc p f val gain ofs s
  | .frameRx id p dlc => Sys2Proof.Machine.execFrameRx id p dlc s
  | .frameTxall => Sys2Proof.Machine.execFrameTxall s
  | .mapAddrx b => Sys2Proof.Machine.execMapAddrx b s
  | .mapAddtx b => Sys2Proof.Machine.execMapAddtx b s
  | .mapRm param => Sys2Proof.Machine.execMapRm param s
  | .mapClr => Sys2Proof.Machine.execMapClr s
  | .mapRereg => Sys2Proof.Machine.execMapRereg s
  | .mapRde tbl idx => Sys2Proof.Machine.execMapRde tbl idx s
  | .mapRds idx => Sys2Proof.Machine.execMapRds idx s
  | .pduPack k => Sys2Proof.Machine.execPduPack k s
  | .pduUnpack k p => Sys2Proof.Machine.execPduUnpack k p s
  | .pduStat k => Sys2Proof.Machine.execPduStat k s
  | .crc8Calc p init poly => Sys2Proof.Machine.execCrc8Calc p init poly s

end Sys2Proof.Machine
end

