-- ==== Sys2Proof/WellFormed.lean ====
section
/-! DEFINITION. Which terms of `Instr` a command record can name (spec/30_encoding.md R81, R85). -/

namespace Sys2Proof

/-- `pos` is a 6-bit number, and `n = wm1 + 1` for a 5-bit `wm1`: position 0 to 63, width 1 to 32 (R81, R85). -/
def FieldRef.wf (f : FieldRef) : Bool :=
  decide (f.pos ≤ 63) && decide (1 ≤ f.width) && decide (f.width ≤ 32)

/-- Only the FX operands can be ill-formed: every other operand's type holds exactly the values its field encodes. -/
def Instr.wf : Instr → Bool
  | .fxGet _ f _ => f.wf
  | .fxOr _ f _ => f.wf
  | .fxIns _ f _ => f.wf
  | .fxDec _ f _ _ _ => f.wf
  | .fxEnc _ f _ _ _ => f.wf
  | .frameRx _ _ _ => true
  | .frameTxall => true
  | .mapAddrx _ => true
  | .mapAddtx _ => true
  | .mapRm _ => true
  | .mapClr => true
  | .mapRereg => true
  | .mapRde _ _ => true
  | .mapRds _ => true
  | .pduPack _ => true
  | .pduUnpack _ _ => true
  | .pduStat _ => true
  | .crc8Calc _ _ _ => true

end Sys2Proof
end

