-- ==== Sys2Proof/Decode.lean ====
section
/-! DEFINITION. The decoder of the 192-bit command record, total on every record, and the encoder
(spec/30_encoding.md R80 to R88). -/

namespace Sys2Proof

/-- What a record names: a command of R86, or an opcode that R87 leaves illegal. -/
inductive Decoded
  | command (i : Instr)
  | illegalOpcode (op : Byte)
  deriving DecidableEq, Repr

/-- The command a decoded record names, if any. -/
def Decoded.instr? : Decoded → Option Instr
  | .command i => some i
  | .illegalOpcode _ => none

/-- `CR[lo + len - 1 : lo]`; `W0` starts at 0, `W1` at 64, `W2` at 128 (R80). -/
def bitsOf (cr : Record) (lo len : Nat) : BitVec len := cr.extractLsb' lo len

/-- One bit of the record. -/
def bitOf (cr : Record) (i : Nat) : Bool := cr.getLsbD i

/-- The field of an FX command: `pos` = W0[13:8], `n` = W0[18:14] + 1, `be` = W0[19] (R81, R85). -/
def fieldOf (cr : Record) : FieldRef :=
  { pos := (bitsOf cr 8 6).toNat
    width := (bitsOf cr 14 5).toNat + 1
    be := bitOf cr 19 }

/-- The operands of MAP.ADDRX and MAP.ADDTX (R82). -/
def bindingOf (cr : Record) : Binding :=
  { id := bitsOf cr 32 32
    param := bitsOf cr 64 16
    bpos := bitsOf cr 8 8
    nb := bitsOf cr 16 8
    sg := bitOf cr 24
    gain := bitsOf cr 128 32
    ofs := bitsOf cr 160 8 }

/-- `tbl` = W1[32]: 0 is transmit, 1 is receive (R82). -/
def tableOf (cr : Record) : Table := if bitOf cr 96 then .rx else .tx

/-- The decoder (R86, R87): the opcode is `W0[7:0]`; reserved fields are ignored. -/
def decode (cr : Record) : Decoded :=
  let op := bitsOf cr 0 8
  if op = 0x10#8 then .command (.fxGet (bitsOf cr 64 64) (fieldOf cr) (bitOf cr 20))
  else if op = 0x11#8 then .command (.fxOr (bitsOf cr 64 64) (fieldOf cr) (bitsOf cr 32 32))
  else if op = 0x12#8 then .command (.fxIns (bitsOf cr 64 64) (fieldOf cr) (bitsOf cr 32 32))
  else if op = 0x13#8 then
    .command (.fxDec (bitsOf cr 64 64) (fieldOf cr) (bitOf cr 20) (bitsOf cr 128 32) (bitsOf cr 160 8))
  else if op = 0x14#8 then
    .command (.fxEnc (bitsOf cr 64 64) (fieldOf cr) (bitsOf cr 32 32) (bitsOf cr 128 32) (bitsOf cr 160 8))
  else if op = 0x20#8 then .command (.frameRx (bitsOf cr 32 32) (bitsOf cr 64 64) (bitsOf cr 8 4))
  else if op = 0x21#8 then .command .frameTxall
  else if op = 0x30#8 then .command (.mapAddrx (bindingOf cr))
  else if op = 0x31#8 then .command (.mapAddtx (bindingOf cr))
  else if op = 0x32#8 then .command (.mapRm (bitsOf cr 64 16))
  else if op = 0x33#8 then .command .mapClr
  else if op = 0x34#8 then .command .mapRereg
  else if op = 0x35#8 then .command (.mapRde (tableOf cr) (bitsOf cr 80 16))
  else if op = 0x36#8 then .command (.mapRds (bitsOf cr 80 16))
  else if op = 0x40#8 then .command (.pduPack (bitsOf cr 8 8))
  else if op = 0x41#8 then .command (.pduUnpack (bitsOf cr 8 8) (bitsOf cr 64 64))
  else if op = 0x42#8 then .command (.pduStat (bitsOf cr 8 8))
  else if op = 0x43#8 then .command (.crc8Calc (bitsOf cr 64 64) (bitsOf cr 16 8) (bitsOf cr 24 8))
  else .illegalOpcode op

/-- The host's view of the decoder: the command of a record of `nbits` bits with value `w`, its other bits 0. -/
def decodeTableWord (nbits w : Nat) : Option Instr :=
  (decode (BitVec.ofNat 192 (w % 2 ^ nbits))).instr?

/-- The opcode of each command (R86). -/
def Instr.opcode : Instr → Byte
  | .fxGet _ _ _ => 0x10#8
  | .fxOr _ _ _ => 0x11#8
  | .fxIns _ _ _ => 0x12#8
  | .fxDec _ _ _ _ _ => 0x13#8
  | .fxEnc _ _ _ _ _ => 0x14#8
  | .frameRx _ _ _ => 0x20#8
  | .frameTxall => 0x21#8
  | .mapAddrx _ => 0x30#8
  | .mapAddtx _ => 0x31#8
  | .mapRm _ => 0x32#8
  | .mapClr => 0x33#8
  | .mapRereg => 0x34#8
  | .mapRde _ _ => 0x35#8
  | .mapRds _ => 0x36#8
  | .pduPack _ => 0x40#8
  | .pduUnpack _ _ => 0x41#8
  | .pduStat _ => 0x42#8
  | .crc8Calc _ _ _ => 0x43#8

/-- A record from its three words (R80). -/
def recordOf (w2 w1 w0 : BitVec 64) : Record := (w2 ++ w1) ++ w0

/-- One bit as a vector. -/
def oneBit (b : Bool) : BitVec 1 := BitVec.ofBool b

/-- `W0` of format FX, from bit 63 down (R81): val, reserved, sg, be, wm1, pos, op. -/
def fxWord0 (op : Byte) (f : FieldRef) (sg : Bool) (val : Word) : BitVec 64 :=
  ((((((val ++ (0#11)) ++ oneBit sg) ++ oneBit f.be) ++ BitVec.ofNat 5 (f.width - 1)) ++ BitVec.ofNat 6 f.pos) ++ op)

/-- `W2` of formats FX and MP, from bit 63 down (R81, R82): reserved, ofs, gain. -/
def scaleWord2 (gain : F32) (ofs : Byte) : BitVec 64 := (0#24 ++ ofs) ++ gain

/-- `W0` of format MP, from bit 63 down (R82): id, reserved, sg, nb, bpos, op. -/
def mpWord0 (op : Byte) (id : Word) (sg : Bool) (nb bpos : Byte) : BitVec 64 :=
  ((((id ++ 0#7) ++ oneBit sg) ++ nb) ++ bpos) ++ op

/-- `W1` of format MP, from bit 63 down (R82): reserved, tbl, idx, param. -/
def mpWord1 (tbl : Table) (idx param : BitVec 16) : BitVec 64 :=
  ((0#31 ++ oneBit (decide (tbl = .rx))) ++ idx) ++ param

/-- `W0` of format FR, from bit 63 down (R83): id, reserved, dlc, op. -/
def frWord0 (op : Byte) (id : Word) (dlc : BitVec 4) : BitVec 64 := ((id ++ 0#20) ++ dlc) ++ op

/-- `W0` of format PD, from bit 63 down (R84): reserved, poly, init, k, op. -/
def pdWord0 (op k init poly : Byte) : BitVec 64 := (((0#32 ++ poly) ++ init) ++ k) ++ op

/-- A binding's record (R82). -/
def encodeBinding (op : Byte) (b : Binding) : Record :=
  recordOf (scaleWord2 b.gain b.ofs) (mpWord1 .tx 0#16 b.param) (mpWord0 op b.id b.sg b.nb b.bpos)

/-- The encoder: the record of a command with every reserved and unused field 0 (R81 to R86). -/
def encode (i : Instr) : Record :=
  match i with
  | .fxGet p f sg => recordOf 0#64 p (fxWord0 i.opcode f sg 0#32)
  | .fxOr p f val => recordOf 0#64 p (fxWord0 i.opcode f false val)
  | .fxIns p f val => recordOf 0#64 p (fxWord0 i.opcode f false val)
  | .fxDec p f sg gain ofs => recordOf (scaleWord2 gain ofs) p (fxWord0 i.opcode f sg 0#32)
  | .fxEnc p f val gain ofs => recordOf (scaleWord2 gain ofs) p (fxWord0 i.opcode f false val)
  | .frameRx id p dlc => recordOf 0#64 p (frWord0 i.opcode id dlc)
  | .frameTxall => recordOf 0#64 0#64 (frWord0 i.opcode 0#32 0#4)
  | .mapAddrx b => encodeBinding i.opcode b
  | .mapAddtx b => encodeBinding i.opcode b
  | .mapRm param => recordOf 0#64 (mpWord1 .tx 0#16 param) (mpWord0 i.opcode 0#32 false 0#8 0#8)
  | .mapClr => recordOf 0#64 0#64 (mpWord0 i.opcode 0#32 false 0#8 0#8)
  | .mapRereg => recordOf 0#64 0#64 (mpWord0 i.opcode 0#32 false 0#8 0#8)
  | .mapRde tbl idx => recordOf 0#64 (mpWord1 tbl idx 0#16) (mpWord0 i.opcode 0#32 false 0#8 0#8)
  | .mapRds idx => recordOf 0#64 (mpWord1 .tx idx 0#16) (mpWord0 i.opcode 0#32 false 0#8 0#8)
  | .pduPack k => recordOf 0#64 0#64 (pdWord0 i.opcode k 0#8 0#8)
  | .pduUnpack k p => recordOf 0#64 p (pdWord0 i.opcode k 0#8 0#8)
  | .pduStat k => recordOf 0#64 0#64 (pdWord0 i.opcode k 0#8 0#8)
  | .crc8Calc p init poly => recordOf 0#64 p (pdWord0 i.opcode 0#8 init poly)

end Sys2Proof
end

