-- ==== Sys2Proof/Machine/Port.lean ====
section
/-! DEFINITION. What the block takes from its inputs in one step (spec/10_state.md R40, R41; spec/30_encoding.md R80, R87;
spec/60_exceptions.md R252, R253; spec/70_reset_and_hazards.md R280). -/

namespace Sys2Proof.Machine

/-- What the next input amounts to: a configuration the spec refuses, a stop, a whole step, or a command to run in a
state. -/
inductive Accepted
  | refuse (r : Refusal)
  | stop (f : Fault)
  | done (s : State)
  | run (i : Instr) (s : State)
  deriving DecidableEq, Repr

/-- An unassigned opcode: `RC <- E_OPCODE` and nothing else (R253). -/
def State.illegalOpcode (s : State) : State := s.setRc eOpcode

/-- A command record taken from the port: a legal one is run, an illegal one answers at once (R87). -/
def State.takeCommand (s : State) (cr : Record) : Accepted :=
  match decode cr with
  | .command i => .run i s
  | .illegalOpcode _ => .done s.illegalOpcode

/-- The oldest pending input. With none pending the block does nothing; a command is not accepted while `pf = 1`
(R252); a reset clears everything R43 lists (R280). -/
def State.accept (s : State) : Accepted :=
  if s.cfg.wf = false then .refuse .illFormedConfiguration
  else
    match s.inputs with
    | [] => .done s
    | .saveBusy level :: rest => .done ((s.setInputs rest).setSaveBusy level)
    | .reset :: rest => .done (s.setInputs rest).afterReset
    | .command cr :: rest =>
      if s.pf then .stop (.protocolFault s.pfReason) else (s.setInputs rest).takeCommand cr

/-- The state with a command record placed so that the next step takes it. -/
def State.offer (s : State) (cr : Record) : State := s.setInputs (.command cr :: s.inputs)

end Sys2Proof.Machine
end

