-- ==== Sys2Proof/Machine/Step.lean ====
section
/-! DEFINITION. One step of the block: take the oldest pending input and act on it (spec/20_memory.md R64, R66). -/

namespace Sys2Proof.Machine

/-- One atomic step. -/
def step (s : State) : Host.Outcome State Fault Refusal :=
  match s.accept with
  | .refuse r => .refused r
  | .stop f => .fault f
  | .done t => .next t
  | .run i t => exec i t

/-- `s` with the record of `nbits` bits and value `w`, its other bits 0, at the command port before every other input
(notes/assumptions/3.md). -/
def State.withFetchWord (s : State) (nbits w : Nat) : State :=
  s.offer (BitVec.ofNat 192 (w % 2 ^ nbits))

end Sys2Proof.Machine
end

