-- ==== Sys2Proof/Safety.lean ====
section
/-! DEFINITION. The terms claims use: the map invariants of spec/10_state.md R31, the invariants of the PDU and fault
state, and where a field's bits are (spec/40_codec.md R100, R101), said apart from the codec's own arithmetic. -/

namespace Sys2Proof.Machine

/-- The lists have the lengths R24, R27 and R32 give them. -/
abbrev State.shapeOk (s : State) : Prop :=
  s.txm.length = s.cfg.maxMessages ∧ s.rxm.length = s.cfg.maxMessages ∧
    s.pool.length = s.cfg.maxItems + 1 ∧ s.pdus.length = s.cfg.schemas.length

/-- The sentinel cell's link is `MAX_ITEMS` (R27). -/
abbrev State.sentinelOk (s : State) : Prop := (s.slot s.cfg.maxItems).next = s.endLink

/-- R31(a): exactly the entries from `count(T)` on are empty (R25). -/
abbrev State.dense (s : State) (t : Table) : Prop :=
  ∀ i < s.cfg.maxMessages, s.isEmpty (s.entry t i) = decide (s.count t ≤ i)

/-- The link on which an entry's list stops. -/
def State.lastLink (s : State) (e : IdEntry) : Nat :=
  match (s.slotsOf e).getLast? with
  | none => e.first.toNat
  | some j => (s.slot j).next.toNat

/-- R31(b): the lists of a table reach `MAX_ITEMS` in at most `MAX_ITEMS` steps. -/
abbrev State.listsEnd (s : State) (t : Table) : Prop := ∀ e ∈ s.live t, s.lastLink e = s.cfg.maxItems

/-- Every slot of every live entry: the transmit table's lists, then the receive table's. -/
def State.mapped (s : State) : List Nat := (s.live .tx ++ s.live .rx).flatMap s.slotsOf

/-- R31(b) and (d): no index is repeated in a list and none is in two lists. -/
abbrev State.noSharing (s : State) : Prop := s.mapped.Nodup

/-- R31(c) and (e): an allocatable cell is live exactly when it is in a list. -/
abbrev State.liveIffMapped (s : State) : Prop :=
  ∀ j < s.cfg.maxItems, decide (j ∈ s.mapped) = decide ((s.slot j).next ≠ itemUnset)

/-- R31(g): no two live entries of a table have one canonical id. -/
abbrev State.idsDistinct (s : State) (t : Table) : Prop :=
  ((s.live t).map fun e => canon s.cfg.idBuild e.id).Nodup

/-- R29: a live entry's id is a numeric id of the build and its force flag, and has been written. -/
abbrev State.idsOk (s : State) (t : Table) : Prop :=
  ∀ e ∈ s.live t, (canon s.cfg.idBuild e.id).toNat ≤ maxNum s.cfg.idBuild ∧ e.written = true

/-- A field that fits the payload: width 1 to 32, and inside it in its byte order (R28; spec/42_map_admin.md R170). -/
abbrev fieldFits (f : FieldRef) : Prop :=
  1 ≤ f.width ∧ f.width ≤ 32 ∧ f.pos ≤ 63 ∧
    (if f.be then f.width ≤ 8 * (7 - f.pos / 8) + f.pos % 8 + 1 else f.pos + f.width ≤ 64)

/-- R31(h): every slot in a list fits, names a parameter of the registry, and has been written. -/
abbrev State.slotsOk (s : State) : Prop :=
  ∀ j ∈ s.mapped, fieldFits (s.slot j).field ∧ (s.slot j).param.toNat < s.cfg.paramLast ∧ (s.slot j).written = true

/-- The map invariants of R31, with the lengths and the configuration they speak of. -/
abbrev State.MapInv (s : State) : Prop :=
  s.cfg.wf = true ∧ s.shapeOk ∧ s.sentinelOk ∧ s.dense .tx ∧ s.dense .rx ∧ s.listsEnd .tx ∧ s.listsEnd .rx ∧
    s.noSharing ∧ s.liveIffMapped ∧ s.idsDistinct .tx ∧ s.idsDistinct .rx ∧ s.idsOk .tx ∧ s.idsOk .rx ∧ s.slotsOk

/-- What the counters of one PDU hold (R32; spec/43_pdu_crc8.md R213): 0 without a counter element, below the modulus
with one. -/
def countersOk (sc : Schema) (d : PduState) : Bool :=
  match sc.counter? with
  | none => decide (d.txc = 0#32) && decide (d.rxc = 0#32)
  | some e => decide (d.txc.toNat < e.modulus.toNat)

/-- The counters of every PDU. -/
abbrev State.PduInv (s : State) : Prop :=
  s.cfg.wf = true ∧ s.pdus.length = s.cfg.schemas.length ∧
    ∀ k < s.cfg.schemas.length, ∀ sc ∈ s.cfg.schemas[k]?, countersOk sc (s.pdu k) = true

/-- `pf` is set exactly when it has a reason (R33; spec/60_exceptions.md R252). -/
abbrev State.PfInv (s : State) : Prop := s.pf = s.pfReason.isSome

/-- From payload bit `q` of a big-endian field, the next less significant bit (spec/40_codec.md R101). -/
def beNext (q : Nat) : Nat := if q % 8 = 0 then q + 15 else q - 1

/-- The payload position of value bit `j` of a field, if the payload has it (R100, R101): up from `pos` in a
little-endian field; in a big-endian one, `n - 1 - j` steps down from the most significant bit at `pos`. -/
def bitPlace (f : FieldRef) (j : Nat) : Option Nat :=
  let q := if f.be then beNext^[f.width - 1 - j] f.pos else f.pos + j
  if q ≤ 63 then some q else none

/-- Value bit `j` of a field as the payload holds it, 0 where the payload has no such bit (R102). -/
def bitRead (p : Payload) (f : FieldRef) (j : Nat) : Bool :=
  match bitPlace f j with
  | some q => p.getLsbD q
  | none => false

/-- Whether payload bit `q` is bit `j` of the field for some `j < n` at which `v` has a 1 (R103). -/
def bitDeposited (f : FieldRef) (v : Word) (q : Nat) : Bool :=
  (List.range f.width).any fun j => decide (bitPlace f j = some q) && v.getLsbD j

/-- Whether payload bit `q` belongs to the field. -/
def bitInField (f : FieldRef) (q : Nat) : Bool :=
  (List.range f.width).any fun j => decide (bitPlace f j = some q)

/-- The error a binding gets before capacity is looked at, in the order and arithmetic R170 writes. -/
def bindingError (c : Params) (b : Binding) : Option Word :=
  let nb := b.nb.toInt
  let p : Int := b.bpos.toNat
  if nb = 0 ∨ 32 < nb ∨ nb < -32 then some eInvalidLen
  else if 63 < p then some eInvalidOfs
  else if 0 < nb ∧ 64 < p + nb then some eInvalidOfs
  else if nb < 0 ∧ 8 * (7 - p / 8) + p % 8 - (-nb) + 1 < 0 then some eInvalidOfs
  else
    match c.idBuild with
    | .extended => if 0x1FFFFFFF < (b.id &&& 0xDFFFFFFF#32).toNat then some eInvalidId else none
    | .classic => if 0x7FF < (b.id &&& 0xDFFFFFFF#32).toNat then some eInvalidId else none

/-- Whether a command is one of the four that mutate the map (spec/60_exceptions.md R252). -/
def Mutates : Instr → Bool
  | .mapAddrx _ => true
  | .mapAddtx _ => true
  | .mapRm _ => true
  | .mapClr => true
  | .fxGet _ _ _ => false
  | .fxOr _ _ _ => false
  | .fxIns _ _ _ => false
  | .fxDec _ _ _ _ _ => false
  | .fxEnc _ _ _ _ _ => false
  | .frameRx _ _ _ => false
  | .frameTxall => false
  | .mapRereg => false
  | .mapRde _ _ => false
  | .mapRds _ => false
  | .pduPack _ => false
  | .pduUnpack _ _ => false
  | .pduStat _ => false
  | .crc8Calc _ _ _ => false

/-- The bits of a record that a command reads: its opcode and the fields spec/opcode_table.json gives its row, as the
words `W2`, `W1`, `W0` (spec/30_encoding.md R81 to R84). -/
def usedBits : Instr → Record
  | .fxGet _ _ _ => recordOf 0#64 0xFFFFFFFFFFFFFFFF#64 0x00000000001FFFFF#64
  | .fxOr _ _ _ => recordOf 0#64 0xFFFFFFFFFFFFFFFF#64 0xFFFFFFFF000FFFFF#64
  | .fxIns _ _ _ => recordOf 0#64 0xFFFFFFFFFFFFFFFF#64 0xFFFFFFFF000FFFFF#64
  | .fxDec _ _ _ _ _ => recordOf 0x000000FFFFFFFFFF#64 0xFFFFFFFFFFFFFFFF#64 0x00000000001FFFFF#64
  | .fxEnc _ _ _ _ _ => recordOf 0x000000FFFFFFFFFF#64 0xFFFFFFFFFFFFFFFF#64 0xFFFFFFFF000FFFFF#64
  | .frameRx _ _ _ => recordOf 0#64 0xFFFFFFFFFFFFFFFF#64 0xFFFFFFFF00000FFF#64
  | .frameTxall => recordOf 0#64 0#64 0xFF#64
  | .mapAddrx _ => recordOf 0x000000FFFFFFFFFF#64 0xFFFF#64 0xFFFFFFFF01FFFFFF#64
  | .mapAddtx _ => recordOf 0x000000FFFFFFFFFF#64 0xFFFF#64 0xFFFFFFFF01FFFFFF#64
  | .mapRm _ => recordOf 0#64 0xFFFF#64 0xFF#64
  | .mapClr => recordOf 0#64 0#64 0xFF#64
  | .mapRereg => recordOf 0#64 0#64 0xFF#64
  | .mapRde _ _ => recordOf 0#64 0x00000001FFFF0000#64 0xFF#64
  | .mapRds _ => recordOf 0#64 0x00000000FFFF0000#64 0xFF#64
  | .pduPack _ => recordOf 0#64 0#64 0xFFFF#64
  | .pduUnpack _ _ => recordOf 0#64 0xFFFFFFFFFFFFFFFF#64 0xFFFF#64
  | .pduStat _ => recordOf 0#64 0#64 0xFFFF#64
  | .crc8Calc _ _ _ => recordOf 0#64 0xFFFFFFFFFFFFFFFF#64 0xFFFF00FF#64

/-- The command that binds a parameter in a table (R172, R173). -/
def addCmd : Table → Binding → Instr
  | .tx, b => .mapAddtx b
  | .rx, b => .mapAddrx b

/-- The other table. -/
def otherTable : Table → Table
  | .tx => .rx
  | .rx => .tx

/-- The events of a successful bind: `Filter(a)` for the receive table only (R172, R173). -/
def addEvents : Table → Binding → List Event
  | .tx, _ => []
  | .rx, b => [.filter b.id]

/-- Whether an element of a schema is a scaled field. -/
def isFieldElement : Element → Bool
  | .field _ => true
  | .counter _ => false
  | .crc8 _ => false

/-- The bit range of an element, little-endian (spec/43_pdu_crc8.md R210). -/
def elementRange : Element → FieldRef
  | .field e => leField e.bpos e.width
  | .counter e => leField e.bpos e.width
  | .crc8 e => leField e.bpos e.width

/-- The state after `m` PDU.PACK commands of one PDU (R223). -/
def packTimes (k : Byte) : Nat → State → Option State
  | 0, s => some s
  | m + 1, s =>
    match exec (.pduPack k) s with
    | .next t => packTimes k m t
    | .fault _ => none
    | .refused _ => none

/-- The signal map is the same in both states. -/
abbrev sameMap (s t : State) : Prop := t.txm = s.txm ∧ t.rxm = s.rxm ∧ t.pool = s.pool

end Sys2Proof.Machine
end

