-- ==== Sys2Proof/Certificates/Slice0/Obligations.lean ====
section
/-! DEFINITION. What the model's provers are asked: the rules of spec/, said of `exec`, `step` and the decoder. -/

open Sys2Proof Sys2Proof.Machine

/-! ## The command record -/

/-- R80 to R86: encoding a well-formed command and decoding the record gives the command back. -/
def Obligations.DecodeOfEncode : Prop :=
  ∀ i : Instr, i.wf = true → decode (encode i) = .command i

/-- R81 to R85: a decoded command is well-formed, and its encoding is the record with every unused bit cleared. -/
def Obligations.EncodeOfDecode : Prop :=
  ∀ (cr : Record) (i : Instr), decode cr = .command i → i.wf = true ∧ encode i = cr &&& usedBits i

/-- R87: two records that differ only in bits the command does not read are the same command. -/
def Obligations.UnusedBitsAreIgnored : Prop :=
  ∀ (cr cr' : Record) (i : Instr),
    decode cr = .command i → cr &&& usedBits i = cr' &&& usedBits i → decode cr' = .command i

/-- R253: an opcode outside R86 writes `E_OPCODE` to `RC` and nothing else; the record is consumed. -/
def Obligations.IllegalOpcodeWritesOnlyRc : Prop :=
  ∀ (s : State) (cr : Record) (rest : List Input),
    s.cfg.wf = true → s.pf = false → s.inputs = .command cr :: rest →
    cr.toNat % 256 ∉ [0x10, 0x11, 0x12, 0x13, 0x14, 0x20, 0x21, 0x30, 0x31, 0x32, 0x33, 0x34, 0x35, 0x36,
      0x40, 0x41, 0x42, 0x43] →
    step s = .next { s with inputs := rest, rc := eOpcode }

/-- R91 and 95_test_vectors.md: words written out in the spec decode to the commands they stand for. -/
def Obligations.SpecWordsDecode : Prop :=
  decode (recordOf 0x3F800000#64 5#64 0x0000020000100031#64) =
      .command (.mapAddtx
        { id := 0x200#32
          param := 5#16
          bpos := 0#8
          nb := 16#8
          sg := false
          gain := 0x3F800000#32
          ofs := 0#8 }) ∧
    decode (recordOf 0#64 0x0000000FF0000000#64 0x000000000001DC10#64) =
      .command (.fxGet 0x0000000FF0000000#64 { pos := 28, width := 8, be := false } false) ∧
    decode (recordOf 0#64 0x0000000000C838FF#64 0x18FF50E500000820#64) =
      .command (.frameRx 0x18FF50E5#32 0xC838FF#64 8#4) ∧
    decode (recordOf 0#64 0#64 0x000000001DFF0043#64) = .command (.crc8Calc 0#64 0xFF#8 0x1D#8)

/-! ## The step -/

/-- R66, R80: a step takes the oldest record at the port and runs the command it names. -/
def Obligations.StepRunsTheDecodedCommand : Prop :=
  ∀ (s : State) (cr : Record) (rest : List Input) (i : Instr),
    s.cfg.wf = true → s.pf = false → s.inputs = .command cr :: rest → decode cr = .command i →
    step s = exec i { s with inputs := rest }

/-- R252: the two protocol faults set `pf` and its reason and nothing else, and a faulted block accepts no command: that
the step then answers a fault is the model's reading (notes/assumptions/11.md). -/
def Obligations.ProtocolFaults : Prop :=
  (∀ (i : Instr) (s : State), Mutates i = true → s.saveBusy = true →
      exec i s = .next { s with pf := true, pfReason := some .mutateWhileSaving }) ∧
    (∀ (t : Table) (b : Binding) (s : State), s.saveBusy = false → s.cfg.paramLast ≤ b.param.toNat →
      exec (addCmd t b) s = .next { s with pf := true, pfReason := some .paramRange }) ∧
    (∀ (s : State) (cr : Record) (rest : List Input), s.cfg.wf = true → s.pf = true →
      s.inputs = .command cr :: rest → step s = .fault (.protocolFault s.pfReason))

/-- R33: a command sets `pf` only by raising a protocol fault, which changes nothing else; only a reset clears it. -/
def Obligations.FaultBitIsSticky : Prop :=
  (∀ (i : Instr) (s t : State), exec i s = .next t → s.pf = false → t.pf = true →
      Mutates i = true ∧ ∃ r, t = { s with pf := true, pfReason := some r }) ∧
    (∀ (i : Instr) (s t : State), exec i s = .next t → s.pf = true → t.pf = true) ∧
    (∀ s t : State, step s = .next t → s.pf = true → t.pf = false → ∃ rest, s.inputs = .reset :: rest)

/-- R280, R43: a reset event, in a faulted block too, gives every piece of state the value R43 states, and emits no
event. That the output history, the level of `save_busy` and what waits at the ports stay is the model's choice
(notes/assumptions/4.md, 6.md). -/
def Obligations.ResetEventClearsTheBlock : Prop :=
  ∀ (s : State) (rest : List Input), s.cfg.wf = true → s.inputs = .reset :: rest →
    ∃ t, step s = .next t ∧
      t.rc = 0#32 ∧ t.rv = 0#32 ∧ t.rf = 0#32 ∧ t.rp = 0#64 ∧ t.ok = false ∧
      (∀ (tbl : Table) (i : Nat), i < s.cfg.maxMessages → (t.entry tbl i).first.toNat = s.cfg.maxItems) ∧
      (∀ j < s.cfg.maxItems, (t.slot j).next = 0xFF#8) ∧ (t.slot s.cfg.maxItems).next.toNat = s.cfg.maxItems ∧
      (∀ k < s.cfg.numPdus, (t.pdu k).txc = 0#32 ∧ (t.pdu k).rxc = 0#32 ∧ (t.pdu k).crcOk = false) ∧
      t.pf = false ∧ t.pfReason = none ∧ t.events = s.events ∧
      t.cfg = s.cfg ∧ t.saveBusy = s.saveBusy ∧ t.inputs = rest

/-- R43: the value of every piece of state after reset, for every configuration the spec defines the block for. -/
def Obligations.ResetValues : Prop :=
  ∀ c : Params, c.wf = true →
    (State.resetWith c).rc = 0#32 ∧ (State.resetWith c).rv = 0#32 ∧ (State.resetWith c).rf = 0#32 ∧
      (State.resetWith c).rp = 0#64 ∧ (State.resetWith c).ok = false ∧
      (∀ (tbl : Table) (i : Nat), i < c.maxMessages → ((State.resetWith c).entry tbl i).first.toNat = c.maxItems) ∧
      (∀ j < c.maxItems, ((State.resetWith c).slot j).next = 0xFF#8) ∧
      ((State.resetWith c).slot c.maxItems).next.toNat = c.maxItems ∧
      (∀ k < c.numPdus, (State.resetWith c).pdu k = { txc := 0#32, rxc := 0#32, crcOk := false }) ∧
      (State.resetWith c).pf = false ∧ (State.resetWith c).pfReason = none

/-- R41 and notes/assumptions/3.md: a new level of `save_busy` changes that level alone, in a faulted block too; with
nothing pending the block does nothing. -/
def Obligations.SaveBusyInputAndIdle : Prop :=
  (∀ (s : State) (level : Bool) (rest : List Input), s.cfg.wf = true → s.inputs = .saveBusy level :: rest →
      step s = .next { s with inputs := rest, saveBusy := level }) ∧
    (∀ s : State, s.cfg.wf = true → s.inputs = [] → step s = .next s)

/-- R250: no command traps, stops or is refused, in any state. -/
def Obligations.EveryCommandCompletes : Prop :=
  ∀ (i : Instr) (s : State), ∃ t, exec i s = .next t

/-- R250, R251: a command that ends with an error code has written only `RC`. -/
def Obligations.ErrorsWriteOnlyRc : Prop :=
  ∀ (i : Instr) (s t : State), s.MapInv → exec i s = .next t → t.pf = false →
    t.rc ∈ [eInvalidId, eInvalidOfs, eInvalidLen, eMaxMessages, eMaxItems, eIndex] → t = { s with rc := t.rc }

/-- R40, R41, R70: no command changes the configuration, the level of `save_busy` or what is pending, and the output
history only grows at its end. -/
def Obligations.CommandsKeepTheEnvironment : Prop :=
  ∀ (i : Instr) (s t : State), exec i s = .next t →
    t.cfg = s.cfg ∧ t.saveBusy = s.saveBusy ∧ t.inputs = s.inputs ∧ s.events <+: t.events

/-- R64: only MAP.ADDRX, MAP.ADDTX, MAP.RM and MAP.CLR change the signal map. -/
def Obligations.OnlyMutationsChangeTheMap : Prop :=
  ∀ (i : Instr) (s t : State), Mutates i = false → exec i s = .next t → sameMap s t

/-- R41: while `save_busy` is 1 no command changes the map, and the frame commands do nothing but write 0 to `RC`. -/
def Obligations.SaveInProgressFreezesTheMap : Prop :=
  (∀ (i : Instr) (s t : State), s.saveBusy = true → exec i s = .next t → sameMap s t) ∧
    (∀ (id : Word) (p : Payload) (dlc : BitVec 4) (s : State), s.saveBusy = true →
      exec (.frameRx id p dlc) s = .next { s with rc := 0#32 }) ∧
    (∀ s : State, s.saveBusy = true → exec .frameTxall s = .next { s with rc := 0#32 })

/-- R32, R213, R214: a transmit counter changes only in a PDU.PACK of its PDU, a received counter and a verdict only in a
PDU.UNPACK of it. -/
def Obligations.PduStateChangesOnlyInItsCommands : Prop :=
  ∀ (i : Instr) (s t : State) (k : Nat), exec i s = .next t →
    ((∀ c : Byte, i = .pduPack c → c.toNat ≠ k) → (t.pdu k).txc = (s.pdu k).txc) ∧
      ((∀ (c : Byte) (p : Payload), i = .pduUnpack c p → c.toNat ≠ k) →
        (t.pdu k).rxc = (s.pdu k).rxc ∧ (t.pdu k).crcOk = (s.pdu k).crcOk)

/-- Answers of the oracles leave their list from its front, only where a command reads them; the count of free values
only grows. Both are the model's own fields (notes/assumptions/7.md, 8.md). -/
def Obligations.OracleAnswersAreTakenInOrder : Prop :=
  ∀ (i : Instr) (s t : State), exec i s = .next t →
    s.draws ≤ t.draws ∧
      (i ≠ .frameTxall → t.paramAnswers = s.paramAnswers) ∧
      (i = .frameTxall → s.saveBusy = false →
        t.paramAnswers = s.paramAnswers.drop ((s.live .tx).map fun e => (s.slotsOf e).length).sum) ∧
      ((∀ k, i ≠ .pduPack k) → t.varAnswers = s.varAnswers) ∧
      ∀ (k : Byte) (sc : Schema), i = .pduPack k → s.cfg.schemas[k.toNat]? = some sc →
        t.varAnswers = s.varAnswers.drop (sc.elems.filter isFieldElement).length

/-- R64: FX.GET, FX.OR, FX.INS, FX.DEC and CRC8.CALC read only their operands and write only result registers: what they
write is one value for every state, so repeating one gives the same results. So does FX.ENC where its sum converts
without a draw; elsewhere it reads, beside its operands, the model's count of draws alone (R12, notes/assumptions/8.md). -/
def Obligations.PureCommandsRepeat : Prop :=
  (∀ (p : Payload) (f : FieldRef) (sg : Bool), ∃ v : Word,
      ∀ s : State, exec (.fxGet p f sg) s = .next { s with rv := v, rc := 0#32 }) ∧
    (∀ (p : Payload) (f : FieldRef) (v : Word), ∃ r : Payload,
      ∀ s : State, exec (.fxOr p f v) s = .next { s with rp := r, rc := 0#32 }) ∧
    (∀ (p : Payload) (f : FieldRef) (v : Word), ∃ r : Payload,
      ∀ s : State, exec (.fxIns p f v) s = .next { s with rp := r, rc := 0#32 }) ∧
    (∀ (p : Payload) (f : FieldRef) (sg : Bool) (gain : F32) (ofs : Byte), ∃ (x : F32) (v : Word),
      ∀ s : State, exec (.fxDec p f sg gain ofs) s = .next { s with rf := x, rv := v, rc := 0#32 }) ∧
    (∀ (p : Payload) (init poly : Byte), ∃ v : Word,
      ∀ s : State, exec (.crc8Calc p init poly) s = .next { s with rv := v, rc := 0#32 }) ∧
    (∀ (p : Payload) (f : FieldRef) (val gain : F32) (ofs : Byte),
      (∀ d d' : Word, f2iTrunc d (f32Add (f32Mul val gain) (i2f ofs.toInt)) =
        f2iTrunc d' (f32Add (f32Mul val gain) (i2f ofs.toInt))) →
      ∃ (r : Payload) (v : Word), ∀ s : State, ∃ n : Nat,
        exec (.fxEnc p f val gain ofs) s = .next { s with rp := r, rv := v, rc := 0#32, draws := n }) ∧
    (∀ (p : Payload) (f : FieldRef) (val gain : F32) (ofs : Byte) (m : Nat), ∃ (r : Payload) (v : Word) (n : Nat),
      ∀ s : State, s.draws = m →
        exec (.fxEnc p f val gain ofs) s = .next { s with rp := r, rv := v, rc := 0#32, draws := n })

/-! ## Invariants -/

/-- R31: the map invariants hold after reset, in every configuration the spec defines the block for. -/
def Obligations.ResetMeetsTheMapInvariants : Prop :=
  ∀ c : Params, c.wf = true → (State.resetWith c).MapInv

/-- R31, R179: every step keeps the map invariants, from every state that meets them. -/
def Obligations.StepKeepsTheMapInvariants : Prop :=
  ∀ s t : State, s.MapInv → step s = .next t → t.MapInv

/-- R32, R33: the counter and fault-bit invariants hold after reset. -/
def Obligations.ResetMeetsPduAndFaultInvariants : Prop :=
  ∀ c : Params, c.wf = true → (State.resetWith c).PduInv ∧ (State.resetWith c).PfInv

/-- R32, R213: every step keeps the counters of a PDU without a counter at 0 and the others below their modulus; and it
keeps `pf` and its reason together. -/
def Obligations.StepKeepsPduAndFaultInvariants : Prop :=
  (∀ s t : State, s.PduInv → step s = .next t → t.PduInv) ∧
    (∀ s t : State, s.PfInv → step s = .next t → t.PfInv)

/-- R31(f): the number of slots in the lists is the number of cells whose link is not `ITEM_UNSET`, less the sentinel. -/
def Obligations.LiveSlotsAreCounted : Prop :=
  ∀ s : State, s.MapInv → s.mapped.length + 1 = (s.pool.filter fun c => decide (c.next ≠ 0xFF#8)).length

/-! ## The codec commands -/

/-- R110: FX.GET gives the field's bits, extended by its top bit when it is signed and wider than one bit. -/
def Obligations.FxGetReadsItsField : Prop :=
  ∀ (p : Payload) (f : FieldRef) (sg : Bool) (s : State), f.wf = true →
    ∃ v : Word, exec (.fxGet p f sg) s = .next { s with rv := v, rc := 0#32 } ∧
      ∀ j < 32, v.getLsbD j =
        if j < f.width then bitRead p f j else (sg && decide (1 < f.width) && bitRead p f (f.width - 1))

/-- R111: FX.OR ORs the low bits of the value into the field and leaves every other bit. -/
def Obligations.FxOrDepositsItsField : Prop :=
  ∀ (p : Payload) (f : FieldRef) (v : Word) (s : State), f.wf = true →
    ∃ r : Payload, exec (.fxOr p f v) s = .next { s with rp := r, rc := 0#32 } ∧
      ∀ q < 64, r.getLsbD q = (p.getLsbD q || bitDeposited f v q)

/-- R112: FX.INS replaces the field's bits and leaves every other bit. -/
def Obligations.FxInsReplacesItsField : Prop :=
  ∀ (p : Payload) (f : FieldRef) (v : Word) (s : State), f.wf = true →
    ∃ r : Payload, exec (.fxIns p f v) s = .next { s with rp := r, rc := 0#32 } ∧
      ∀ q < 64, r.getLsbD q = if bitInField f q then bitDeposited f v q else p.getLsbD q

/-- R113: FX.DEC adds the offset, then multiplies by the gain. -/
def Obligations.FxDecScalesItsField : Prop :=
  ∀ (p : Payload) (f : FieldRef) (sg : Bool) (gain : F32) (ofs : Byte) (s : State),
    exec (.fxDec p f sg gain ofs) s =
      .next { s with
        rf := f32Mul (f32Add (i2f (ival (getField p f) f.width sg)) (i2f ofs.toInt)) gain
        rv := BitVec.ofInt 32 (ival (getField p f) f.width sg)
        rc := 0#32 }

/-- R114: FX.ENC multiplies by the gain, then adds the offset, truncates, keeps the low bits and ORs them in; a value
out of int32 range gives the low bits of a free draw. -/
def Obligations.FxEncScalesItsValue : Prop :=
  ∀ (p : Payload) (f : FieldRef) (val gain : F32) (ofs : Byte) (s : State), f.wf = true →
    ∃ (draw raw : Word) (n : Nat),
      raw.toNat = (f2iTrunc draw (f32Add (f32Mul val gain) (i2f ofs.toInt))).toNat % 2 ^ f.width ∧
        exec (.fxEnc p f val gain ofs) s =
          .next { s with rp := putOr p f raw, rv := raw, rc := 0#32, draws := n }

/-- R106, R11: with gain 1.0 and offset 0, FX.DEC of a field of at most 24 bits gives the integer exactly. -/
def Obligations.FxDecIsExactOnSmallFields : Prop :=
  ∀ (p : Payload) (f : FieldRef) (sg : Bool) (s : State), f.wf = true → f.width ≤ 24 →
    ∃ t, exec (.fxDec p f sg 0x3F800000#32 0#8) s = .next t ∧
      f32IsNaN t.rf = false ∧ f32IsInf t.rf = false ∧ f32Int t.rf = t.rv.toInt * 2 ^ 149

/-- R107, R11, R12: with gain 1.0 and offset 0, FX.ENC of an integer of magnitude at most 2^24 gives its low bits. -/
def Obligations.FxEncIsExactOnSmallIntegers : Prop :=
  ∀ (p : Payload) (f : FieldRef) (x : Int) (s : State), f.wf = true → -(2 ^ 24) ≤ x → x ≤ 2 ^ 24 →
    ∃ t, exec (.fxEnc p f (i2f x) 0x3F800000#32 0#8) s = .next t ∧
      (t.rv.toNat : Int) = x % 2 ^ f.width ∧ t.rp = putOr p f t.rv

/-- R120: a little-endian field that fits reads back as the low bits of what was written into it. -/
def Obligations.LittleEndianRoundTrip : Prop :=
  ∀ (p : Payload) (pos n : Nat) (v : Word) (s : State), 1 ≤ n → n ≤ 32 → pos + n ≤ 64 →
    (∃ t, exec (.fxOr 0#64 { pos := pos, width := n, be := false } v) s = .next t ∧
        ∃ u, exec (.fxGet t.rp { pos := pos, width := n, be := false } false) t = .next u ∧
          u.rv.toNat = v.toNat % 2 ^ n) ∧
      ∃ t, exec (.fxIns p { pos := pos, width := n, be := false } v) s = .next t ∧
        ∃ u, exec (.fxGet t.rp { pos := pos, width := n, be := false } false) t = .next u ∧
          u.rv.toNat = v.toNat % 2 ^ n

/-- R122: a big-endian field that fits reads back as the low bits of what was written into it. -/
def Obligations.BigEndianRoundTrip : Prop :=
  ∀ (p : Payload) (pos n : Nat) (v : Word) (s : State), 1 ≤ n → n ≤ 32 → pos ≤ 63 →
    n ≤ 8 * (7 - pos / 8) + pos % 8 + 1 →
    ∃ t, exec (.fxIns p { pos := pos, width := n, be := true } v) s = .next t ∧
      ∃ u, exec (.fxGet t.rp { pos := pos, width := n, be := true } false) t = .next u ∧
        u.rv.toNat = v.toNat % 2 ^ n

/-- R121: a signed field of more than one bit whose bits are all ones decodes to -1. -/
def Obligations.SignedAllOnesIsMinusOne : Prop :=
  ∀ (pos n : Nat) (be : Bool) (s : State), 2 ≤ n →
    fieldFits { pos := pos, width := n, be := be } →
    ival (BitVec.ofNat 32 (2 ^ n - 1)) n true = -1 ∧
      ∃ t, exec (.fxGet 0xFFFFFFFFFFFFFFFF#64 { pos := pos, width := n, be := be } true) s = .next t ∧
        t.rv.toInt = -1

/-- R123: OR-deposits commute and repeat without effect, so a payload does not depend on the order of its slots. -/
def Obligations.OrMergeLaws : Prop :=
  (∀ (p : Payload) (f g : FieldRef) (v w : Word), putOr (putOr p f v) g w = putOr (putOr p g w) f v) ∧
    (∀ (p : Payload) (f : FieldRef) (v : Word), putOr (putOr p f v) f v = putOr p f v) ∧
    (∀ (p : Payload) (l l' : List (FieldRef × Word)), l.Perm l' →
      l.foldl (fun q x => putOr q x.1 x.2) p = l'.foldl (fun q x => putOr q x.1 x.2) p)

/-- R112: writing back the value just read leaves the payload unchanged. -/
def Obligations.InsertOfTheReadValue : Prop :=
  ∀ (p : Payload) (f : FieldRef) (s : State), f.wf = true →
    ∃ t, exec (.fxGet p f false) s = .next t ∧ ∃ u, exec (.fxIns p f t.rv) t = .next u ∧ u.rp = p

/-! ## The frame commands -/

/-- R142: FRAME.RX writes nothing while a save is in progress or where no receive entry has the id; otherwise it emits
one ParamWrite for each slot of the entry, in list order. -/
def Obligations.FrameRxDecodesItsEntry : Prop :=
  ∀ (id : Word) (p : Payload) (dlc : BitVec 4) (s : State),
    (s.saveBusy = true → exec (.frameRx id p dlc) s = .next { s with rc := 0#32 }) ∧
      ((∀ i < s.count .rx, canon s.cfg.idBuild (s.entry .rx i).id ≠ id &&& 0xDFFFFFFF#32) →
        exec (.frameRx id p dlc) s = .next { s with rc := 0#32 }) ∧
      (∀ i, s.MapInv → s.saveBusy = false → i < s.count .rx →
        canon s.cfg.idBuild (s.entry .rx i).id = id &&& 0xDFFFFFFF#32 →
        ∃ (es : List Event) (n : Nat),
          exec (.frameRx id p dlc) s =
              .next { s with
                events := s.events ++ es
                rc := BitVec.ofNat 32 (s.slotsOf (s.entry .rx i)).length
                draws := n } ∧
            es.length = (s.slotsOf (s.entry .rx i)).length ∧
            ∀ (m j : Nat), (s.slotsOf (s.entry .rx i))[m]? = some j →
              ∃ draw : Word, es[m]? = some (.paramWrite (s.slot j).param
                (storageForm draw (s.kind (s.slot j).param)
                  (c4Dec (ival (getField p (s.slot j).field) (s.slot j).nb.toInt.natAbs (s.slot j).sg)
                    (s.slot j).ofs (s.slot j).gain))))

/-- R141: a received id with bit 30 or 31 set matches no entry. -/
def Obligations.ReceivedHighBitsNeverMatch : Prop :=
  ∀ (id : Word) (p : Payload) (dlc : BitVec 4) (s : State), s.MapInv →
    (id.getLsbD 30 = true ∨ id.getLsbD 31 = true) → exec (.frameRx id p dlc) s = .next { s with rc := 0#32 }

/-- R147 and R142: the data length code is not read, and a received id is matched as if bit 29 were clear. -/
def Obligations.FrameRxIgnoresDlcAndForceBit : Prop :=
  ∀ (id : Word) (p : Payload) (dlc dlc' : BitVec 4) (s : State),
    exec (.frameRx (id ||| 0x20000000#32) p dlc) s = exec (.frameRx (id &&& 0xDFFFFFFF#32) p dlc') s

/-- R144: FRAME.TXALL does nothing while a save is in progress; otherwise it emits one Send for each transmit entry, in
index order, whose payload is the OR of what its slots deposit from the parameters they read. -/
def Obligations.FrameTxallSendsEveryEntry : Prop :=
  ∀ s : State,
    (s.saveBusy = true → exec .frameTxall s = .next { s with rc := 0#32 }) ∧
      (s.MapInv → s.saveBusy = false →
        ∃ (es : List Event) (n : Nat) (left : List F32),
          exec .frameTxall s =
              .next { s with
                events := s.events ++ es
                rc := BitVec.ofNat 32 (s.count .tx)
                draws := n
                paramAnswers := left } ∧
            es.length = s.count .tx ∧
            ∀ i < s.count .tx, ∃ (p : Payload) (raws : List Word),
              es[i]? = some (.send (pubId s.cfg.idBuild (s.entry .tx i).id) (p.extractLsb' 0 32)
                (p.extractLsb' 32 32) 8#4) ∧
              raws.length = (s.slotsOf (s.entry .tx i)).length ∧
              (∀ (m j : Nat), (s.slotsOf (s.entry .tx i))[m]? = some j →
                ∃ draw : Word, raws[m]? = some (c4Enc draw
                  (s.paramRead ((((s.live .tx).take i).map fun e => (s.slotsOf e).length).sum + m) (s.slot j).param)
                  (s.slot j).gain (s.slot j).ofs (s.slot j).nb.toInt.natAbs)) ∧
              ∀ q < 64, p.getLsbD q =
                (((s.slotsOf (s.entry .tx i)).zip raws).any fun x => bitDeposited (s.slot x.1).field x.2 q))

/-! ## Map administration -/

/-- R170: a binding that R170 rejects writes its error code to `RC` and changes nothing else. -/
def Obligations.InvalidBindingsAreRejected : Prop :=
  ∀ (t : Table) (b : Binding) (s : State) (code : Word),
    s.saveBusy = false → b.param.toNat < s.cfg.paramLast → bindingError s.cfg b = some code →
    exec (addCmd t b) s = .next { s with rc := code }

/-- R171: a new id with the table full is `E_MAXMESSAGES`; otherwise no free cell is `E_MAXITEMS`; nothing else changes. -/
def Obligations.CapacityErrors : Prop :=
  ∀ (t : Table) (b : Binding) (s : State),
    s.saveBusy = false → b.param.toNat < s.cfg.paramLast → bindingError s.cfg b = none →
    ((∀ i < s.count t, canon s.cfg.idBuild (s.entry t i).id ≠ b.id &&& 0xDFFFFFFF#32) →
        s.count t = s.cfg.maxMessages → exec (addCmd t b) s = .next { s with rc := eMaxMessages }) ∧
      (((∃ i < s.count t, canon s.cfg.idBuild (s.entry t i).id = b.id &&& 0xDFFFFFFF#32) ∨
          s.count t ≠ s.cfg.maxMessages) →
        (∀ j < s.cfg.maxItems, (s.slot j).next ≠ 0xFF#8) →
        exec (addCmd t b) s = .next { s with rc := eMaxItems })

/-- R171 to R173: a binding of a new id takes the lowest free cell `j` and a new entry at `count(T)`; MAP.ADDRX also
emits `Filter(a)`. -/
def Obligations.AddMakesANewEntry : Prop :=
  ∀ (t : Table) (b : Binding) (s : State) (j : Nat),
    s.MapInv → s.saveBusy = false → b.param.toNat < s.cfg.paramLast → bindingError s.cfg b = none →
    (∀ i < s.count t, canon s.cfg.idBuild (s.entry t i).id ≠ b.id &&& 0xDFFFFFFF#32) →
    s.count t < s.cfg.maxMessages →
    j < s.cfg.maxItems → (s.slot j).next = 0xFF#8 → (∀ j' < j, (s.slot j').next ≠ 0xFF#8) →
    ∃ u, exec (addCmd t b) s = .next u ∧
      u = { s with
        rc := BitVec.ofNat 32 (s.count t + 1)
        events := s.events ++ addEvents t b
        txm := u.txm
        rxm := u.rxm
        pool := u.pool } ∧
      u.count t = s.count t + 1 ∧
      u.entry t (s.count t) =
        { id := (b.id &&& 0xDFFFFFFF#32) |||
            (if b.id.getLsbD 29 then 1#32 <<< (match s.cfg.idBuild with | .extended => 29 | .classic => 11) else 0#32)
          first := BitVec.ofNat 16 j
          written := true } ∧
      u.slotsOf (u.entry t (s.count t)) = [j] ∧
      u.slot j =
        { param := b.param
          gain := b.gain
          ofs := b.ofs
          bpos := b.bpos
          nb := b.nb
          sg := b.sg
          next := BitVec.ofNat 8 s.cfg.maxItems
          written := true } ∧
      (∀ i, i ≠ s.count t → u.entry t i = s.entry t i) ∧ u.table (otherTable t) = s.table (otherTable t) ∧
      (∀ j', j' ≠ j → u.slot j' = s.slot j')

/-- R171: a binding of an id the table has takes the lowest free cell `j` and joins the tail of that entry's list; the
entry keeps its stored id, and both tables are unchanged. -/
def Obligations.AddAppendsToItsEntry : Prop :=
  ∀ (t : Table) (b : Binding) (s : State) (i j : Nat),
    s.MapInv → s.saveBusy = false → b.param.toNat < s.cfg.paramLast → bindingError s.cfg b = none →
    i < s.count t → canon s.cfg.idBuild (s.entry t i).id = b.id &&& 0xDFFFFFFF#32 →
    j < s.cfg.maxItems → (s.slot j).next = 0xFF#8 → (∀ j' < j, (s.slot j').next ≠ 0xFF#8) →
    ∃ u, exec (addCmd t b) s = .next u ∧
      u = { s with rc := BitVec.ofNat 32 (s.count t), events := s.events ++ addEvents t b, pool := u.pool } ∧
      u.slotsOf (u.entry t i) = s.slotsOf (s.entry t i) ++ [j] ∧
      u.slot j =
        { param := b.param
          gain := b.gain
          ofs := b.ofs
          bpos := b.bpos
          nb := b.nb
          sg := b.sg
          next := BitVec.ofNat 8 s.cfg.maxItems
          written := true } ∧
      ∀ j', j' ≠ j → u.slot j' =
        if (s.slotsOf (s.entry t i)).getLast? = some j' then { s.slot j' with next := BitVec.ofNat 8 j } else s.slot j'

/-- R174: MAP.RM of a parameter that no slot names gives 0 and changes nothing else. -/
def Obligations.RemoveOfAnUnboundParameter : Prop :=
  ∀ (param : BitVec 16) (s : State), s.saveBusy = false → (∀ j ∈ s.mapped, (s.slot j).param ≠ param) →
    exec (.mapRm param) s = .next { s with rc := 0#32 }

/-- R174: MAP.RM frees exactly the first slot bound to the parameter, in table, entry and list order; the cell keeps its
other fields. -/
def Obligations.RemoveFreesTheFirstSlot : Prop :=
  ∀ (param : BitVec 16) (s : State) (j : Nat), s.MapInv → s.saveBusy = false →
    s.mapped.find? (fun c => (s.slot c).param == param) = some j →
    ∃ u, exec (.mapRm param) s = .next u ∧
      u = { s with rc := 1#32, txm := u.txm, rxm := u.rxm, pool := u.pool } ∧
      u.slot j = { s.slot j with next := 0xFF#8 } ∧ u.mapped.Perm (s.mapped.erase j) ∧
      ∀ c, c ≠ j → u.slot c = { s.slot c with next := (u.slot c).next }

/-- R174: where the entry keeps another slot, MAP.RM takes the cell out of its list and leaves every other entry's list and
every id as they were. -/
def Obligations.RemoveUnlinksWithinAList : Prop :=
  ∀ (param : BitVec 16) (s : State) (t : Table) (i j : Nat), s.MapInv → s.saveBusy = false →
    s.mapped.find? (fun c => (s.slot c).param == param) = some j →
    i < s.count t → j ∈ s.slotsOf (s.entry t i) → 2 ≤ (s.slotsOf (s.entry t i)).length →
    ∃ u, exec (.mapRm param) s = .next u ∧
      u.slotsOf (u.entry t i) = (s.slotsOf (s.entry t i)).erase j ∧
      (∀ t', u.count t' = s.count t') ∧ (∀ t' i', (u.entry t' i').id = (s.entry t' i').id) ∧
      (∀ t' i', (t', i') ≠ (t, i) → i' < s.count t' → u.slotsOf (u.entry t' i') = s.slotsOf (s.entry t' i'))

/-- R174: where the entry's only slot goes, the last live entry is copied into its place and its own place is empty,
keeping its stale id. -/
def Obligations.RemoveCompactsTheTable : Prop :=
  ∀ (param : BitVec 16) (s : State) (t : Table) (i j : Nat), s.MapInv → s.saveBusy = false →
    s.mapped.find? (fun c => (s.slot c).param == param) = some j →
    i < s.count t → s.slotsOf (s.entry t i) = [j] →
    ∃ u, exec (.mapRm param) s = .next u ∧
      u.count t = s.count t - 1 ∧
      (i ≠ s.count t - 1 → u.entry t i = s.entry t (s.count t - 1)) ∧
      u.entry t (s.count t - 1) =
        { s.entry t (s.count t - 1) with first := BitVec.ofNat 16 s.cfg.maxItems } ∧
      (∀ i', i' ≠ i → i' ≠ s.count t - 1 → u.entry t i' = s.entry t i') ∧
      u.table (otherTable t) = s.table (otherTable t)

/-- R175: MAP.CLR empties both tables and frees every cell; ids and the other slot fields keep their values. During a save
it is a protocol fault. -/
def Obligations.ClearEmptiesTheMap : Prop :=
  ∀ s : State,
    (s.saveBusy = true → exec .mapClr s = .next { s with pf := true, pfReason := some .mutateWhileSaving }) ∧
      (s.MapInv → s.saveBusy = false →
        ∃ u, exec .mapClr s = .next u ∧
          u = { s with rc := 0#32, txm := u.txm, rxm := u.rxm, pool := u.pool } ∧
          (∀ t, u.count t = 0) ∧
          (∀ t, ∀ i < s.cfg.maxMessages,
            u.entry t i = { s.entry t i with first := BitVec.ofNat 16 s.cfg.maxItems }) ∧
          (∀ j < s.cfg.maxItems, u.slot j = { s.slot j with next := 0xFF#8 }) ∧
          u.slot s.cfg.maxItems = s.slot s.cfg.maxItems)

/-- R176: MAP.REREG emits one Filter for each receive entry, in index order, in the public form with the force flag in bit
29, and is allowed while a save is in progress. -/
def Obligations.ReregisterAnnouncesEveryId : Prop :=
  ∀ s : State, ∃ es : List Event,
    exec .mapRereg s = .next { s with events := s.events ++ es, rc := BitVec.ofNat 32 (s.count .rx) } ∧
      es.length = s.count .rx ∧
      ∀ i < s.count .rx, ∃ a : Word, es[i]? = some (.filter a) ∧
        a = canon s.cfg.idBuild (s.entry .rx i).id |||
          (if (s.entry .rx i).id.getLsbD (match s.cfg.idBuild with | .extended => 29 | .classic => 11)
            then 0x20000000#32 else 0#32)

/-- R177: MAP.RDE reads an entry back; the id of an entry never written since reset is any value. -/
def Obligations.EntryReadback : Prop :=
  ∀ (t : Table) (idx : BitVec 16) (s : State),
    (s.cfg.maxMessages ≤ idx.toNat → exec (.mapRde t idx) s = .next { s with rc := eIndex }) ∧
      (idx.toNat < s.cfg.maxMessages →
        ∃ (v : Word) (n : Nat), ((s.entry t idx.toNat).written = true → v = (s.entry t idx.toNat).id) ∧
          exec (.mapRde t idx) s =
            .next { s with rv := v, rp := (s.entry t idx.toNat).first.setWidth 64, rc := 0#32, draws := n })

/-- R178: MAP.RDS reads a slot back, its fields in their places; while a save is in progress `param` is any value, and in
a cell never written since reset every field but the link is. -/
def Obligations.SlotReadback : Prop :=
  ∀ (idx : BitVec 16) (s : State),
    (s.cfg.maxItems < idx.toNat → exec (.mapRds idx) s = .next { s with rc := eIndex }) ∧
      (idx.toNat ≤ s.cfg.maxItems →
        ∃ (v : Word) (r : Payload) (g : F32) (n : Nat),
          exec (.mapRds idx) s = .next { s with rv := v, rp := r, rf := g, rc := 0#32, draws := n } ∧
            v.extractLsb' 16 8 = (s.slot idx.toNat).next ∧ r.toNat < 2 ^ 17 ∧
            ((s.slot idx.toNat).written = true →
              v.extractLsb' 24 8 = (s.slot idx.toNat).nb ∧ r.extractLsb' 0 8 = (s.slot idx.toNat).bpos ∧
                r.extractLsb' 8 8 = (s.slot idx.toNat).ofs ∧ r.getLsbD 16 = (s.slot idx.toNat).sg ∧
                g = (s.slot idx.toNat).gain ∧
                (s.saveBusy = false → v.extractLsb' 0 16 = (s.slot idx.toNat).param)))

/-- R254: an index outside its space writes `E_INDEX` to `RC` and nothing else. -/
def Obligations.IndexErrorsWriteOnlyRc : Prop :=
  (∀ (t : Table) (idx : BitVec 16) (s : State), s.cfg.maxMessages ≤ idx.toNat →
      exec (.mapRde t idx) s = .next { s with rc := eIndex }) ∧
    (∀ (idx : BitVec 16) (s : State), s.cfg.maxItems < idx.toNat →
      exec (.mapRds idx) s = .next { s with rc := eIndex }) ∧
    (∀ (k : Byte) (p : Payload) (s : State), s.cfg.numPdus ≤ k.toNat →
      exec (.pduPack k) s = .next { s with rc := eIndex } ∧
        exec (.pduUnpack k p) s = .next { s with rc := eIndex } ∧
        exec (.pduStat k) s = .next { s with rc := eIndex })

/-! ## The PDU and CRC commands -/

/-- R213: PDU.PACK ORs every field and the advanced counter into the payload, then zeroes the CRC range and deposits the
CRC of the whole payload; an index without a PDU is `E_INDEX`. -/
def Obligations.PackBuildsThePayload : Prop :=
  ∀ (k : Byte) (s : State),
    (s.cfg.numPdus ≤ k.toNat → exec (.pduPack k) s = .next { s with rc := eIndex }) ∧
      ∀ sc : Schema, s.cfg.schemas[k.toNat]? = some sc → sc.wf = true →
        ∃ (q p : Payload) (txc : Word) (raws : List Word) (n : Nat) (left : List F32),
          exec (.pduPack k) s =
              .next { s with
                rp := p
                rv := sc.cid
                rc := 0#32
                pdus := s.pdus.set k.toNat { s.pdu k.toNat with txc := txc }
                draws := n
                varAnswers := left } ∧
            (sc.counter? = none → txc = (s.pdu k.toNat).txc) ∧
            (∀ e, sc.counter? = some e → txc.toNat = ((s.pdu k.toNat).txc.toNat + 1) % e.modulus.toNat) ∧
            raws.length = sc.elems.length ∧
            (∀ (m : Nat) (e : PduField), sc.elems[m]? = some (.field e) →
              ∃ draw : Word, raws[m]? =
                some (c6Enc draw (s.varRead ((sc.elems.take m).filter isFieldElement).length k e.var) e)) ∧
            (∀ (m : Nat) (e : PduCounter), sc.elems[m]? = some (.counter e) → raws[m]? = some txc) ∧
            (∀ (m : Nat) (e : PduCrc), sc.elems[m]? = some (.crc8 e) → raws[m]? = some 0#32) ∧
            (∀ b < 64, q.getLsbD b = ((sc.elems.zip raws).any fun x => bitDeposited (elementRange x.1) x.2 b)) ∧
            (sc.crc? = none → p = q) ∧
            (∀ e, sc.crc? = some e →
              p = insertField (insertField q (leField e.bpos e.width) 0#32) (leField e.bpos e.width)
                ((crc8Elem k.toNat (insertField q (leField e.bpos e.width) 0#32) e).setWidth 32))

/-- R223: after `m` PDU.PACK commands from counter 0 the counter is `m mod modulus`. -/
def Obligations.CounterLaw : Prop :=
  ∀ (k : Byte) (s : State) (sc : Schema) (e : PduCounter) (m : Nat),
    s.cfg.schemas[k.toNat]? = some sc → sc.wf = true → sc.counter? = some e → k.toNat < s.pdus.length →
    (s.pdu k.toNat).txc = 0#32 →
    ∃ t, packTimes k m s = some t ∧ (t.pdu k.toNat).txc.toNat = m % e.modulus.toNat

/-- R220: a payload produced by PDU.PACK, unpacked unmodified in any state of the same configuration, validates. -/
def Obligations.PackedPayloadsValidate : Prop :=
  ∀ (k : Byte) (s : State) (sc : Schema), s.cfg.schemas[k.toNat]? = some sc → sc.wf = true →
    ∃ t, exec (.pduPack k) s = .next t ∧
      ∀ u : State, u.cfg = s.cfg →
        ∃ v, exec (.pduUnpack k t.rp) u = .next v ∧ v.ok = true ∧ v.rc = 1#32

/-- R214: PDU.UNPACK says whether the CRC matches; a payload that fails under the gate writes nothing, any other writes
every field in order and stores the received counter; an index without a PDU is `E_INDEX`. -/
def Obligations.UnpackValidatesAndWrites : Prop :=
  ∀ (k : Byte) (p : Payload) (s : State),
    (s.cfg.numPdus ≤ k.toNat → exec (.pduUnpack k p) s = .next { s with rc := eIndex }) ∧
      ∀ sc : Schema, s.cfg.schemas[k.toNat]? = some sc → sc.wf = true →
        ∃ (ok : Bool) (es : List Event) (rxc : Word),
          exec (.pduUnpack k p) s =
              .next { s with
                ok := ok
                rc := if ok then 1#32 else 0#32
                events := s.events ++ es
                pdus := s.pdus.set k.toNat { txc := (s.pdu k.toNat).txc, rxc := rxc, crcOk := ok } } ∧
            (ok = true ↔ ∀ e, sc.crc? = some e →
              (getField p (leField e.bpos e.width)).toNat =
                (crc8Elem k.toNat (insertField p (leField e.bpos e.width) 0#32) e).toNat % 2 ^ e.width) ∧
            (ok = false → s.cfg.pduUnpackGated = true → es = [] ∧ rxc = (s.pdu k.toNat).rxc) ∧
            ((ok = true ∨ s.cfg.pduUnpackGated = false) →
              es = (sc.elems.filterMap fun x =>
                  match x with
                  | .field e => some (.varWrite k e.var (f32Add (f32Mul
                      (i2f (ival (getField p (leField e.bpos e.width)) e.width e.sg)) e.factor) e.offset))
                  | .counter _ => none
                  | .crc8 _ => none) ∧
                (sc.counter? = none → rxc = (s.pdu k.toNat).rxc) ∧
                ∀ e, sc.counter? = some e → rxc = getField p (leField e.bpos e.width))

/-- R215: PDU.STAT reads the two counters and the verdict. -/
def Obligations.StatReadback : Prop :=
  ∀ (k : Byte) (s : State),
    (s.cfg.numPdus ≤ k.toNat → exec (.pduStat k) s = .next { s with rc := eIndex }) ∧
      (k.toNat < s.cfg.numPdus →
        exec (.pduStat k) s =
          .next { s with
            rv := (s.pdu k.toNat).txc
            rp := (s.pdu k.toNat).rxc.setWidth 64
            ok := (s.pdu k.toNat).crcOk
            rc := 0#32 })

/-- R216: CRC8.CALC gives the default CRC-8; with polynomial 0 it gives 0 for every payload and initial value. -/
def Obligations.CrcCalcGivesTheDefaultCrc : Prop :=
  (∀ (p : Payload) (init poly : Byte) (s : State),
      exec (.crc8Calc p init poly) s = .next { s with rv := (crc8Default p init poly).setWidth 32, rc := 0#32 }) ∧
    (∀ (p : Payload) (init : Byte) (s : State),
      exec (.crc8Calc p init 0#8) s = .next { s with rv := 0#32, rc := 0#32 })

/-- R221: a change of exactly one payload bit changes the CRC when the polynomial's bit 0 is 1; XOR-ing byte `i` with 0x01
and byte `i + 1` with the polynomial does not change it. -/
def Obligations.CrcDetectsOneBitAndCollides : Prop :=
  (∀ (p : Payload) (init poly : Byte) (q : Nat), q < 64 → poly.getLsbD 0 = true →
      crc8Default (p ^^^ (1#64 <<< q)) init poly ≠ crc8Default p init poly) ∧
    (∀ (p : Payload) (init poly : Byte) (i : Nat), i < 7 →
      crc8Default (p ^^^ ((1#64 <<< (8 * i)) ^^^ (poly.setWidth 64 <<< (8 * (i + 1))))) init poly =
        crc8Default p init poly)
end

