-- ==== Sys2Proof/Laws/Codec.lean ====
section
/-! SUPPORT. The codec's operations bit by bit: masks, the reversed view, the field's place (spec/40_codec.md R100 to
R104), where a draw reaches the transmit scaling (R107), and the CRC register as a linear map (spec/43_pdu_crc8.md R211). -/

namespace Sys2Proof.Machine

theorem getLsbD_mask64 (n i : Nat) : (mask64 n).getLsbD i = (decide (i < 64) && decide (i < n)) := by
  simp [mask64, BitVec.getLsbD_ofNat, Nat.testBit_two_pow_sub_one]

theorem getLsbD_mask32 (n i : Nat) : (mask32 n).getLsbD i = (decide (i < 32) && decide (i < n)) := by
  simp [mask32, BitVec.getLsbD_ofNat, Nat.testBit_two_pow_sub_one]

/-- Bit `i` of the reversed view is payload bit `8 * (7 - i div 8) + i mod 8` (R101). -/
theorem getLsbD_bswap64 (p : Payload) {i : Nat} (h : i < 64) :
    (bswap64 p).getLsbD i = p.getLsbD (8 * (7 - i / 8) + i % 8) := by
  unfold bswap64 payloadByte
  simp only [BitVec.getLsbD_append, BitVec.getLsbD_extractLsb']
  interval_cases i <;> simp only [Nat.reduceMul, Nat.reduceAdd, Nat.reduceSub, Nat.reduceDiv, Nat.reduceMod,
    Nat.reduceLT, decide_true, decide_false, Bool.true_and, if_true, if_false, Bool.false_and]

theorem bswap64_bswap64 (p : Payload) : bswap64 (bswap64 p) = p := by
  apply BitVec.eq_of_getLsbD_eq
  intro i hi
  have h8 : 8 * (7 - i / 8) + i % 8 < 64 := by omega
  rw [getLsbD_bswap64 _ hi, getLsbD_bswap64 _ h8]
  congr 1
  omega

theorem bswap64_or (p q : Payload) : bswap64 (p ||| q) = bswap64 p ||| bswap64 q := by
  apply BitVec.eq_of_getLsbD_eq
  intro i hi
  simp [getLsbD_bswap64 _ hi]

@[simp] theorem fieldView_fieldView (p : Payload) (be : Bool) : fieldView (fieldView p be) be = p := by
  cases be <;> simp [fieldView, bswap64_bswap64]

theorem fieldView_or (p q : Payload) (be : Bool) : fieldView (p ||| q) be = fieldView p be ||| fieldView q be := by
  cases be <;> simp [fieldView, bswap64_or]

/-- What `putOr` adds to the payload does not depend on the payload (R103). -/
theorem putOr_eq_or (p : Payload) (f : FieldRef) (v : Word) : putOr p f v = p ||| putOr 0#64 f v := by
  have hz : fieldView 0#64 f.be = 0#64 := by cases f.be <;> decide
  simp [putOr, fieldView_or, hz]

theorem byte_shiftLeft_xor (c d : Byte) : (c ^^^ d) <<< 1 = (c <<< 1) ^^^ (d <<< 1) := by
  apply BitVec.eq_of_getLsbD_eq
  intro i hi
  simp only [BitVec.getLsbD_shiftLeft, BitVec.getLsbD_xor]
  cases decide (i < 8) <;> cases decide (i < 1) <;> simp

theorem byte_xor_cancel (a b q : Byte) : a ^^^ q ^^^ (b ^^^ q) = a ^^^ b := by
  rw [BitVec.xor_comm b q, BitVec.xor_assoc, ← BitVec.xor_assoc q, BitVec.xor_self, BitVec.zero_xor]

/-- One shift of the CRC register is linear. -/
theorem crcShift_xor (poly c d : Byte) : crcShift poly (c ^^^ d) = crcShift poly c ^^^ crcShift poly d := by
  unfold crcShift
  rw [byte_shiftLeft_xor, BitVec.msb_xor]
  cases c.msb <;> cases d.msb
  · rfl
  · exact BitVec.xor_assoc _ _ _
  · show c <<< 1 ^^^ d <<< 1 ^^^ poly = c <<< 1 ^^^ poly ^^^ d <<< 1
    ac_rfl
  · exact (byte_xor_cancel _ _ _).symm

/-- Eight shifts, and so a byte into the CRC register, are linear in the register and the byte together. -/
theorem crcByte_xor (poly c d b e : Byte) :
    crcByte poly (c ^^^ d) (b ^^^ e) = crcByte poly c b ^^^ crcByte poly d e := by
  have iter : ∀ (n : Nat) (x y : Byte),
      (crcShift poly)^[n] (x ^^^ y) = (crcShift poly)^[n] x ^^^ (crcShift poly)^[n] y := by
    intro n
    induction n with
    | zero => intro x y; rfl
    | succ n ih => intro x y; simp only [Function.iterate_succ_apply, crcShift_xor, ih]
  unfold crcByte
  rw [← iter]
  congr 1
  ac_rfl

/-- The transmit scaling reads its draw through the conversion alone (R107). -/
theorem c4Enc_draw {val gain : F32} {ofs : Byte} {d d' : Word} (n : Nat)
    (h : f2iTrunc d (f32Add (f32Mul val gain) (i2f ofs.toInt)) =
      f2iTrunc d' (f32Add (f32Mul val gain) (i2f ofs.toInt))) :
    c4Enc d val gain ofs n = c4Enc d' val gain ofs n :=
  congrArg (lowBits n) h

end Sys2Proof.Machine
end

