-- ==== Sys2Proof/Laws/State.lean ====
section
/-! SUPPORT. What each state update does to each field. -/

namespace Sys2Proof.Machine

variable (s : State)

@[simp] theorem State.setRc_cfg (v : Word) : (s.setRc v).cfg = s.cfg := rfl
@[simp] theorem State.setRc_rc (v : Word) : (s.setRc v).rc = v := rfl
@[simp] theorem State.setRc_rv (v : Word) : (s.setRc v).rv = s.rv := rfl
@[simp] theorem State.setRc_rf (v : Word) : (s.setRc v).rf = s.rf := rfl
@[simp] theorem State.setRc_rp (v : Word) : (s.setRc v).rp = s.rp := rfl
@[simp] theorem State.setRc_ok (v : Word) : (s.setRc v).ok = s.ok := rfl
@[simp] theorem State.setRc_txm (v : Word) : (s.setRc v).txm = s.txm := rfl
@[simp] theorem State.setRc_rxm (v : Word) : (s.setRc v).rxm = s.rxm := rfl
@[simp] theorem State.setRc_pool (v : Word) : (s.setRc v).pool = s.pool := rfl
@[simp] theorem State.setRc_pdus (v : Word) : (s.setRc v).pdus = s.pdus := rfl
@[simp] theorem State.setRc_pf (v : Word) : (s.setRc v).pf = s.pf := rfl
@[simp] theorem State.setRc_pfReason (v : Word) : (s.setRc v).pfReason = s.pfReason := rfl
@[simp] theorem State.setRc_saveBusy (v : Word) : (s.setRc v).saveBusy = s.saveBusy := rfl
@[simp] theorem State.setRc_inputs (v : Word) : (s.setRc v).inputs = s.inputs := rfl
@[simp] theorem State.setRc_events (v : Word) : (s.setRc v).events = s.events := rfl
@[simp] theorem State.setRc_paramAnswers (v : Word) : (s.setRc v).paramAnswers = s.paramAnswers := rfl
@[simp] theorem State.setRc_varAnswers (v : Word) : (s.setRc v).varAnswers = s.varAnswers := rfl
@[simp] theorem State.setRc_draws (v : Word) : (s.setRc v).draws = s.draws := rfl

@[simp] theorem State.setRv_cfg (v : Word) : (s.setRv v).cfg = s.cfg := rfl
@[simp] theorem State.setRv_rc (v : Word) : (s.setRv v).rc = s.rc := rfl
@[simp] theorem State.setRv_rv (v : Word) : (s.setRv v).rv = v := rfl
@[simp] theorem State.setRv_rf (v : Word) : (s.setRv v).rf = s.rf := rfl
@[simp] theorem State.setRv_rp (v : Word) : (s.setRv v).rp = s.rp := rfl
@[simp] theorem State.setRv_ok (v : Word) : (s.setRv v).ok = s.ok := rfl
@[simp] theorem State.setRv_txm (v : Word) : (s.setRv v).txm = s.txm := rfl
@[simp] theorem State.setRv_rxm (v : Word) : (s.setRv v).rxm = s.rxm := rfl
@[simp] theorem State.setRv_pool (v : Word) : (s.setRv v).pool = s.pool := rfl
@[simp] theorem State.setRv_pdus (v : Word) : (s.setRv v).pdus = s.pdus := rfl
@[simp] theorem State.setRv_pf (v : Word) : (s.setRv v).pf = s.pf := rfl
@[simp] theorem State.setRv_pfReason (v : Word) : (s.setRv v).pfReason = s.pfReason := rfl
@[simp] theorem State.setRv_saveBusy (v : Word) : (s.setRv v).saveBusy = s.saveBusy := rfl
@[simp] theorem State.setRv_inputs (v : Word) : (s.setRv v).inputs = s.inputs := rfl
@[simp] theorem State.setRv_events (v : Word) : (s.setRv v).events = s.events := rfl
@[simp] theorem State.setRv_paramAnswers (v : Word) : (s.setRv v).paramAnswers = s.paramAnswers := rfl
@[simp] theorem State.setRv_varAnswers (v : Word) : (s.setRv v).varAnswers = s.varAnswers := rfl
@[simp] theorem State.setRv_draws (v : Word) : (s.setRv v).draws = s.draws := rfl

@[simp] theorem State.setRf_cfg (v : F32) : (s.setRf v).cfg = s.cfg := rfl
@[simp] theorem State.setRf_rc (v : F32) : (s.setRf v).rc = s.rc := rfl
@[simp] theorem State.setRf_rv (v : F32) : (s.setRf v).rv = s.rv := rfl
@[simp] theorem State.setRf_rf (v : F32) : (s.setRf v).rf = v := rfl
@[simp] theorem State.setRf_rp (v : F32) : (s.setRf v).rp = s.rp := rfl
@[simp] theorem State.setRf_ok (v : F32) : (s.setRf v).ok = s.ok := rfl
@[simp] theorem State.setRf_txm (v : F32) : (s.setRf v).txm = s.txm := rfl
@[simp] theorem State.setRf_rxm (v : F32) : (s.setRf v).rxm = s.rxm := rfl
@[simp] theorem State.setRf_pool (v : F32) : (s.setRf v).pool = s.pool := rfl
@[simp] theorem State.setRf_pdus (v : F32) : (s.setRf v).pdus = s.pdus := rfl
@[simp] theorem State.setRf_pf (v : F32) : (s.setRf v).pf = s.pf := rfl
@[simp] theorem State.setRf_pfReason (v : F32) : (s.setRf v).pfReason = s.pfReason := rfl
@[simp] theorem State.setRf_saveBusy (v : F32) : (s.setRf v).saveBusy = s.saveBusy := rfl
@[simp] theorem State.setRf_inputs (v : F32) : (s.setRf v).inputs = s.inputs := rfl
@[simp] theorem State.setRf_events (v : F32) : (s.setRf v).events = s.events := rfl
@[simp] theorem State.setRf_paramAnswers (v : F32) : (s.setRf v).paramAnswers = s.paramAnswers := rfl
@[simp] theorem State.setRf_varAnswers (v : F32) : (s.setRf v).varAnswers = s.varAnswers := rfl
@[simp] theorem State.setRf_draws (v : F32) : (s.setRf v).draws = s.draws := rfl

@[simp] theorem State.setRp_cfg (v : Payload) : (s.setRp v).cfg = s.cfg := rfl
@[simp] theorem State.setRp_rc (v : Payload) : (s.setRp v).rc = s.rc := rfl
@[simp] theorem State.setRp_rv (v : Payload) : (s.setRp v).rv = s.rv := rfl
@[simp] theorem State.setRp_rf (v : Payload) : (s.setRp v).rf = s.rf := rfl
@[simp] theorem State.setRp_rp (v : Payload) : (s.setRp v).rp = v := rfl
@[simp] theorem State.setRp_ok (v : Payload) : (s.setRp v).ok = s.ok := rfl
@[simp] theorem State.setRp_txm (v : Payload) : (s.setRp v).txm = s.txm := rfl
@[simp] theorem State.setRp_rxm (v : Payload) : (s.setRp v).rxm = s.rxm := rfl
@[simp] theorem State.setRp_pool (v : Payload) : (s.setRp v).pool = s.pool := rfl
@[simp] theorem State.setRp_pdus (v : Payload) : (s.setRp v).pdus = s.pdus := rfl
@[simp] theorem State.setRp_pf (v : Payload) : (s.setRp v).pf = s.pf := rfl
@[simp] theorem State.setRp_pfReason (v : Payload) : (s.setRp v).pfReason = s.pfReason := rfl
@[simp] theorem State.setRp_saveBusy (v : Payload) : (s.setRp v).saveBusy = s.saveBusy := rfl
@[simp] theorem State.setRp_inputs (v : Payload) : (s.setRp v).inputs = s.inputs := rfl
@[simp] theorem State.setRp_events (v : Payload) : (s.setRp v).events = s.events := rfl
@[simp] theorem State.setRp_paramAnswers (v : Payload) : (s.setRp v).paramAnswers = s.paramAnswers := rfl
@[simp] theorem State.setRp_varAnswers (v : Payload) : (s.setRp v).varAnswers = s.varAnswers := rfl
@[simp] theorem State.setRp_draws (v : Payload) : (s.setRp v).draws = s.draws := rfl

@[simp] theorem State.setOk_cfg (v : Bool) : (s.setOk v).cfg = s.cfg := rfl
@[simp] theorem State.setOk_rc (v : Bool) : (s.setOk v).rc = s.rc := rfl
@[simp] theorem State.setOk_rv (v : Bool) : (s.setOk v).rv = s.rv := rfl
@[simp] theorem State.setOk_rf (v : Bool) : (s.setOk v).rf = s.rf := rfl
@[simp] theorem State.setOk_rp (v : Bool) : (s.setOk v).rp = s.rp := rfl
@[simp] theorem State.setOk_ok (v : Bool) : (s.setOk v).ok = v := rfl
@[simp] theorem State.setOk_txm (v : Bool) : (s.setOk v).txm = s.txm := rfl
@[simp] theorem State.setOk_rxm (v : Bool) : (s.setOk v).rxm = s.rxm := rfl
@[simp] theorem State.setOk_pool (v : Bool) : (s.setOk v).pool = s.pool := rfl
@[simp] theorem State.setOk_pdus (v : Bool) : (s.setOk v).pdus = s.pdus := rfl
@[simp] theorem State.setOk_pf (v : Bool) : (s.setOk v).pf = s.pf := rfl
@[simp] theorem State.setOk_pfReason (v : Bool) : (s.setOk v).pfReason = s.pfReason := rfl
@[simp] theorem State.setOk_saveBusy (v : Bool) : (s.setOk v).saveBusy = s.saveBusy := rfl
@[simp] theorem State.setOk_inputs (v : Bool) : (s.setOk v).inputs = s.inputs := rfl
@[simp] theorem State.setOk_events (v : Bool) : (s.setOk v).events = s.events := rfl
@[simp] theorem State.setOk_paramAnswers (v : Bool) : (s.setOk v).paramAnswers = s.paramAnswers := rfl
@[simp] theorem State.setOk_varAnswers (v : Bool) : (s.setOk v).varAnswers = s.varAnswers := rfl
@[simp] theorem State.setOk_draws (v : Bool) : (s.setOk v).draws = s.draws := rfl

@[simp] theorem State.emit_cfg (es : List Event) : (s.emit es).cfg = s.cfg := rfl
@[simp] theorem State.emit_rc (es : List Event) : (s.emit es).rc = s.rc := rfl
@[simp] theorem State.emit_rv (es : List Event) : (s.emit es).rv = s.rv := rfl
@[simp] theorem State.emit_rf (es : List Event) : (s.emit es).rf = s.rf := rfl
@[simp] theorem State.emit_rp (es : List Event) : (s.emit es).rp = s.rp := rfl
@[simp] theorem State.emit_ok (es : List Event) : (s.emit es).ok = s.ok := rfl
@[simp] theorem State.emit_txm (es : List Event) : (s.emit es).txm = s.txm := rfl
@[simp] theorem State.emit_rxm (es : List Event) : (s.emit es).rxm = s.rxm := rfl
@[simp] theorem State.emit_pool (es : List Event) : (s.emit es).pool = s.pool := rfl
@[simp] theorem State.emit_pdus (es : List Event) : (s.emit es).pdus = s.pdus := rfl
@[simp] theorem State.emit_pf (es : List Event) : (s.emit es).pf = s.pf := rfl
@[simp] theorem State.emit_pfReason (es : List Event) : (s.emit es).pfReason = s.pfReason := rfl
@[simp] theorem State.emit_saveBusy (es : List Event) : (s.emit es).saveBusy = s.saveBusy := rfl
@[simp] theorem State.emit_inputs (es : List Event) : (s.emit es).inputs = s.inputs := rfl
@[simp] theorem State.emit_events (es : List Event) : (s.emit es).events = s.events ++ es := rfl
@[simp] theorem State.emit_paramAnswers (es : List Event) : (s.emit es).paramAnswers = s.paramAnswers := rfl
@[simp] theorem State.emit_varAnswers (es : List Event) : (s.emit es).varAnswers = s.varAnswers := rfl
@[simp] theorem State.emit_draws (es : List Event) : (s.emit es).draws = s.draws := rfl

@[simp] theorem State.raise_cfg (r : PfReason) : (s.raise r).cfg = s.cfg := rfl
@[simp] theorem State.raise_rc (r : PfReason) : (s.raise r).rc = s.rc := rfl
@[simp] theorem State.raise_rv (r : PfReason) : (s.raise r).rv = s.rv := rfl
@[simp] theorem State.raise_rf (r : PfReason) : (s.raise r).rf = s.rf := rfl
@[simp] theorem State.raise_rp (r : PfReason) : (s.raise r).rp = s.rp := rfl
@[simp] theorem State.raise_ok (r : PfReason) : (s.raise r).ok = s.ok := rfl
@[simp] theorem State.raise_txm (r : PfReason) : (s.raise r).txm = s.txm := rfl
@[simp] theorem State.raise_rxm (r : PfReason) : (s.raise r).rxm = s.rxm := rfl
@[simp] theorem State.raise_pool (r : PfReason) : (s.raise r).pool = s.pool := rfl
@[simp] theorem State.raise_pdus (r : PfReason) : (s.raise r).pdus = s.pdus := rfl
@[simp] theorem State.raise_pf (r : PfReason) : (s.raise r).pf = true := rfl
@[simp] theorem State.raise_pfReason (r : PfReason) : (s.raise r).pfReason = some r := rfl
@[simp] theorem State.raise_saveBusy (r : PfReason) : (s.raise r).saveBusy = s.saveBusy := rfl
@[simp] theorem State.raise_inputs (r : PfReason) : (s.raise r).inputs = s.inputs := rfl
@[simp] theorem State.raise_events (r : PfReason) : (s.raise r).events = s.events := rfl
@[simp] theorem State.raise_paramAnswers (r : PfReason) : (s.raise r).paramAnswers = s.paramAnswers := rfl
@[simp] theorem State.raise_varAnswers (r : PfReason) : (s.raise r).varAnswers = s.varAnswers := rfl
@[simp] theorem State.raise_draws (r : PfReason) : (s.raise r).draws = s.draws := rfl

@[simp] theorem State.useDraws_cfg (n : Nat) : (s.useDraws n).cfg = s.cfg := rfl
@[simp] theorem State.useDraws_rc (n : Nat) : (s.useDraws n).rc = s.rc := rfl
@[simp] theorem State.useDraws_rv (n : Nat) : (s.useDraws n).rv = s.rv := rfl
@[simp] theorem State.useDraws_rf (n : Nat) : (s.useDraws n).rf = s.rf := rfl
@[simp] theorem State.useDraws_rp (n : Nat) : (s.useDraws n).rp = s.rp := rfl
@[simp] theorem State.useDraws_ok (n : Nat) : (s.useDraws n).ok = s.ok := rfl
@[simp] theorem State.useDraws_txm (n : Nat) : (s.useDraws n).txm = s.txm := rfl
@[simp] theorem State.useDraws_rxm (n : Nat) : (s.useDraws n).rxm = s.rxm := rfl
@[simp] theorem State.useDraws_pool (n : Nat) : (s.useDraws n).pool = s.pool := rfl
@[simp] theorem State.useDraws_pdus (n : Nat) : (s.useDraws n).pdus = s.pdus := rfl
@[simp] theorem State.useDraws_pf (n : Nat) : (s.useDraws n).pf = s.pf := rfl
@[simp] theorem State.useDraws_pfReason (n : Nat) : (s.useDraws n).pfReason = s.pfReason := rfl
@[simp] theorem State.useDraws_saveBusy (n : Nat) : (s.useDraws n).saveBusy = s.saveBusy := rfl
@[simp] theorem State.useDraws_inputs (n : Nat) : (s.useDraws n).inputs = s.inputs := rfl
@[simp] theorem State.useDraws_events (n : Nat) : (s.useDraws n).events = s.events := rfl
@[simp] theorem State.useDraws_paramAnswers (n : Nat) : (s.useDraws n).paramAnswers = s.paramAnswers := rfl
@[simp] theorem State.useDraws_varAnswers (n : Nat) : (s.useDraws n).varAnswers = s.varAnswers := rfl
@[simp] theorem State.useDraws_draws (n : Nat) : (s.useDraws n).draws = s.draws + n := rfl

@[simp] theorem State.useParamAnswers_cfg (n : Nat) : (s.useParamAnswers n).cfg = s.cfg := rfl
@[simp] theorem State.useParamAnswers_rc (n : Nat) : (s.useParamAnswers n).rc = s.rc := rfl
@[simp] theorem State.useParamAnswers_rv (n : Nat) : (s.useParamAnswers n).rv = s.rv := rfl
@[simp] theorem State.useParamAnswers_rf (n : Nat) : (s.useParamAnswers n).rf = s.rf := rfl
@[simp] theorem State.useParamAnswers_rp (n : Nat) : (s.useParamAnswers n).rp = s.rp := rfl
@[simp] theorem State.useParamAnswers_ok (n : Nat) : (s.useParamAnswers n).ok = s.ok := rfl
@[simp] theorem State.useParamAnswers_txm (n : Nat) : (s.useParamAnswers n).txm = s.txm := rfl
@[simp] theorem State.useParamAnswers_rxm (n : Nat) : (s.useParamAnswers n).rxm = s.rxm := rfl
@[simp] theorem State.useParamAnswers_pool (n : Nat) : (s.useParamAnswers n).pool = s.pool := rfl
@[simp] theorem State.useParamAnswers_pdus (n : Nat) : (s.useParamAnswers n).pdus = s.pdus := rfl
@[simp] theorem State.useParamAnswers_pf (n : Nat) : (s.useParamAnswers n).pf = s.pf := rfl
@[simp] theorem State.useParamAnswers_pfReason (n : Nat) : (s.useParamAnswers n).pfReason = s.pfReason := rfl
@[simp] theorem State.useParamAnswers_saveBusy (n : Nat) : (s.useParamAnswers n).saveBusy = s.saveBusy := rfl
@[simp] theorem State.useParamAnswers_inputs (n : Nat) : (s.useParamAnswers n).inputs = s.inputs := rfl
@[simp] theorem State.useParamAnswers_events (n : Nat) : (s.useParamAnswers n).events = s.events := rfl
@[simp] theorem State.useParamAnswers_paramAnswers (n : Nat) : (s.useParamAnswers n).paramAnswers = s.paramAnswers.drop n := rfl
@[simp] theorem State.useParamAnswers_varAnswers (n : Nat) : (s.useParamAnswers n).varAnswers = s.varAnswers := rfl
@[simp] theorem State.useParamAnswers_draws (n : Nat) : (s.useParamAnswers n).draws = s.draws := rfl

@[simp] theorem State.useVarAnswers_cfg (n : Nat) : (s.useVarAnswers n).cfg = s.cfg := rfl
@[simp] theorem State.useVarAnswers_rc (n : Nat) : (s.useVarAnswers n).rc = s.rc := rfl
@[simp] theorem State.useVarAnswers_rv (n : Nat) : (s.useVarAnswers n).rv = s.rv := rfl
@[simp] theorem State.useVarAnswers_rf (n : Nat) : (s.useVarAnswers n).rf = s.rf := rfl
@[simp] theorem State.useVarAnswers_rp (n : Nat) : (s.useVarAnswers n).rp = s.rp := rfl
@[simp] theorem State.useVarAnswers_ok (n : Nat) : (s.useVarAnswers n).ok = s.ok := rfl
@[simp] theorem State.useVarAnswers_txm (n : Nat) : (s.useVarAnswers n).txm = s.txm := rfl
@[simp] theorem State.useVarAnswers_rxm (n : Nat) : (s.useVarAnswers n).rxm = s.rxm := rfl
@[simp] theorem State.useVarAnswers_pool (n : Nat) : (s.useVarAnswers n).pool = s.pool := rfl
@[simp] theorem State.useVarAnswers_pdus (n : Nat) : (s.useVarAnswers n).pdus = s.pdus := rfl
@[simp] theorem State.useVarAnswers_pf (n : Nat) : (s.useVarAnswers n).pf = s.pf := rfl
@[simp] theorem State.useVarAnswers_pfReason (n : Nat) : (s.useVarAnswers n).pfReason = s.pfReason := rfl
@[simp] theorem State.useVarAnswers_saveBusy (n : Nat) : (s.useVarAnswers n).saveBusy = s.saveBusy := rfl
@[simp] theorem State.useVarAnswers_inputs (n : Nat) : (s.useVarAnswers n).inputs = s.inputs := rfl
@[simp] theorem State.useVarAnswers_events (n : Nat) : (s.useVarAnswers n).events = s.events := rfl
@[simp] theorem State.useVarAnswers_paramAnswers (n : Nat) : (s.useVarAnswers n).paramAnswers = s.paramAnswers := rfl
@[simp] theorem State.useVarAnswers_varAnswers (n : Nat) : (s.useVarAnswers n).varAnswers = s.varAnswers.drop n := rfl
@[simp] theorem State.useVarAnswers_draws (n : Nat) : (s.useVarAnswers n).draws = s.draws := rfl

@[simp] theorem State.setPool_cfg (l : List Slot) : (s.setPool l).cfg = s.cfg := rfl
@[simp] theorem State.setPool_rc (l : List Slot) : (s.setPool l).rc = s.rc := rfl
@[simp] theorem State.setPool_rv (l : List Slot) : (s.setPool l).rv = s.rv := rfl
@[simp] theorem State.setPool_rf (l : List Slot) : (s.setPool l).rf = s.rf := rfl
@[simp] theorem State.setPool_rp (l : List Slot) : (s.setPool l).rp = s.rp := rfl
@[simp] theorem State.setPool_ok (l : List Slot) : (s.setPool l).ok = s.ok := rfl
@[simp] theorem State.setPool_txm (l : List Slot) : (s.setPool l).txm = s.txm := rfl
@[simp] theorem State.setPool_rxm (l : List Slot) : (s.setPool l).rxm = s.rxm := rfl
@[simp] theorem State.setPool_pool (l : List Slot) : (s.setPool l).pool = l := rfl
@[simp] theorem State.setPool_pdus (l : List Slot) : (s.setPool l).pdus = s.pdus := rfl
@[simp] theorem State.setPool_pf (l : List Slot) : (s.setPool l).pf = s.pf := rfl
@[simp] theorem State.setPool_pfReason (l : List Slot) : (s.setPool l).pfReason = s.pfReason := rfl
@[simp] theorem State.setPool_saveBusy (l : List Slot) : (s.setPool l).saveBusy = s.saveBusy := rfl
@[simp] theorem State.setPool_inputs (l : List Slot) : (s.setPool l).inputs = s.inputs := rfl
@[simp] theorem State.setPool_events (l : List Slot) : (s.setPool l).events = s.events := rfl
@[simp] theorem State.setPool_paramAnswers (l : List Slot) : (s.setPool l).paramAnswers = s.paramAnswers := rfl
@[simp] theorem State.setPool_varAnswers (l : List Slot) : (s.setPool l).varAnswers = s.varAnswers := rfl
@[simp] theorem State.setPool_draws (l : List Slot) : (s.setPool l).draws = s.draws := rfl

@[simp] theorem State.setPdus_cfg (l : List PduState) : (s.setPdus l).cfg = s.cfg := rfl
@[simp] theorem State.setPdus_rc (l : List PduState) : (s.setPdus l).rc = s.rc := rfl
@[simp] theorem State.setPdus_rv (l : List PduState) : (s.setPdus l).rv = s.rv := rfl
@[simp] theorem State.setPdus_rf (l : List PduState) : (s.setPdus l).rf = s.rf := rfl
@[simp] theorem State.setPdus_rp (l : List PduState) : (s.setPdus l).rp = s.rp := rfl
@[simp] theorem State.setPdus_ok (l : List PduState) : (s.setPdus l).ok = s.ok := rfl
@[simp] theorem State.setPdus_txm (l : List PduState) : (s.setPdus l).txm = s.txm := rfl
@[simp] theorem State.setPdus_rxm (l : List PduState) : (s.setPdus l).rxm = s.rxm := rfl
@[simp] theorem State.setPdus_pool (l : List PduState) : (s.setPdus l).pool = s.pool := rfl
@[simp] theorem State.setPdus_pdus (l : List PduState) : (s.setPdus l).pdus = l := rfl
@[simp] theorem State.setPdus_pf (l : List PduState) : (s.setPdus l).pf = s.pf := rfl
@[simp] theorem State.setPdus_pfReason (l : List PduState) : (s.setPdus l).pfReason = s.pfReason := rfl
@[simp] theorem State.setPdus_saveBusy (l : List PduState) : (s.setPdus l).saveBusy = s.saveBusy := rfl
@[simp] theorem State.setPdus_inputs (l : List PduState) : (s.setPdus l).inputs = s.inputs := rfl
@[simp] theorem State.setPdus_events (l : List PduState) : (s.setPdus l).events = s.events := rfl
@[simp] theorem State.setPdus_paramAnswers (l : List PduState) : (s.setPdus l).paramAnswers = s.paramAnswers := rfl
@[simp] theorem State.setPdus_varAnswers (l : List PduState) : (s.setPdus l).varAnswers = s.varAnswers := rfl
@[simp] theorem State.setPdus_draws (l : List PduState) : (s.setPdus l).draws = s.draws := rfl

@[simp] theorem State.setSaveBusy_cfg (b : Bool) : (s.setSaveBusy b).cfg = s.cfg := rfl
@[simp] theorem State.setSaveBusy_rc (b : Bool) : (s.setSaveBusy b).rc = s.rc := rfl
@[simp] theorem State.setSaveBusy_rv (b : Bool) : (s.setSaveBusy b).rv = s.rv := rfl
@[simp] theorem State.setSaveBusy_rf (b : Bool) : (s.setSaveBusy b).rf = s.rf := rfl
@[simp] theorem State.setSaveBusy_rp (b : Bool) : (s.setSaveBusy b).rp = s.rp := rfl
@[simp] theorem State.setSaveBusy_ok (b : Bool) : (s.setSaveBusy b).ok = s.ok := rfl
@[simp] theorem State.setSaveBusy_txm (b : Bool) : (s.setSaveBusy b).txm = s.txm := rfl
@[simp] theorem State.setSaveBusy_rxm (b : Bool) : (s.setSaveBusy b).rxm = s.rxm := rfl
@[simp] theorem State.setSaveBusy_pool (b : Bool) : (s.setSaveBusy b).pool = s.pool := rfl
@[simp] theorem State.setSaveBusy_pdus (b : Bool) : (s.setSaveBusy b).pdus = s.pdus := rfl
@[simp] theorem State.setSaveBusy_pf (b : Bool) : (s.setSaveBusy b).pf = s.pf := rfl
@[simp] theorem State.setSaveBusy_pfReason (b : Bool) : (s.setSaveBusy b).pfReason = s.pfReason := rfl
@[simp] theorem State.setSaveBusy_saveBusy (b : Bool) : (s.setSaveBusy b).saveBusy = b := rfl
@[simp] theorem State.setSaveBusy_inputs (b : Bool) : (s.setSaveBusy b).inputs = s.inputs := rfl
@[simp] theorem State.setSaveBusy_events (b : Bool) : (s.setSaveBusy b).events = s.events := rfl
@[simp] theorem State.setSaveBusy_paramAnswers (b : Bool) : (s.setSaveBusy b).paramAnswers = s.paramAnswers := rfl
@[simp] theorem State.setSaveBusy_varAnswers (b : Bool) : (s.setSaveBusy b).varAnswers = s.varAnswers := rfl
@[simp] theorem State.setSaveBusy_draws (b : Bool) : (s.setSaveBusy b).draws = s.draws := rfl

@[simp] theorem State.setInputs_cfg (l : List Input) : (s.setInputs l).cfg = s.cfg := rfl
@[simp] theorem State.setInputs_rc (l : List Input) : (s.setInputs l).rc = s.rc := rfl
@[simp] theorem State.setInputs_rv (l : List Input) : (s.setInputs l).rv = s.rv := rfl
@[simp] theorem State.setInputs_rf (l : List Input) : (s.setInputs l).rf = s.rf := rfl
@[simp] theorem State.setInputs_rp (l : List Input) : (s.setInputs l).rp = s.rp := rfl
@[simp] theorem State.setInputs_ok (l : List Input) : (s.setInputs l).ok = s.ok := rfl
@[simp] theorem State.setInputs_txm (l : List Input) : (s.setInputs l).txm = s.txm := rfl
@[simp] theorem State.setInputs_rxm (l : List Input) : (s.setInputs l).rxm = s.rxm := rfl
@[simp] theorem State.setInputs_pool (l : List Input) : (s.setInputs l).pool = s.pool := rfl
@[simp] theorem State.setInputs_pdus (l : List Input) : (s.setInputs l).pdus = s.pdus := rfl
@[simp] theorem State.setInputs_pf (l : List Input) : (s.setInputs l).pf = s.pf := rfl
@[simp] theorem State.setInputs_pfReason (l : List Input) : (s.setInputs l).pfReason = s.pfReason := rfl
@[simp] theorem State.setInputs_saveBusy (l : List Input) : (s.setInputs l).saveBusy = s.saveBusy := rfl
@[simp] theorem State.setInputs_inputs (l : List Input) : (s.setInputs l).inputs = l := rfl
@[simp] theorem State.setInputs_events (l : List Input) : (s.setInputs l).events = s.events := rfl
@[simp] theorem State.setInputs_paramAnswers (l : List Input) : (s.setInputs l).paramAnswers = s.paramAnswers := rfl
@[simp] theorem State.setInputs_varAnswers (l : List Input) : (s.setInputs l).varAnswers = s.varAnswers := rfl
@[simp] theorem State.setInputs_draws (l : List Input) : (s.setInputs l).draws = s.draws := rfl

@[simp] theorem State.setTable_cfg (t : Table) (l : List IdEntry) : (s.setTable t l).cfg = s.cfg := by cases t <;> rfl
@[simp] theorem State.setTable_rc (t : Table) (l : List IdEntry) : (s.setTable t l).rc = s.rc := by cases t <;> rfl
@[simp] theorem State.setTable_rv (t : Table) (l : List IdEntry) : (s.setTable t l).rv = s.rv := by cases t <;> rfl
@[simp] theorem State.setTable_rf (t : Table) (l : List IdEntry) : (s.setTable t l).rf = s.rf := by cases t <;> rfl
@[simp] theorem State.setTable_rp (t : Table) (l : List IdEntry) : (s.setTable t l).rp = s.rp := by cases t <;> rfl
@[simp] theorem State.setTable_ok (t : Table) (l : List IdEntry) : (s.setTable t l).ok = s.ok := by cases t <;> rfl
@[simp] theorem State.setTable_pool (t : Table) (l : List IdEntry) : (s.setTable t l).pool = s.pool := by cases t <;> rfl
@[simp] theorem State.setTable_pdus (t : Table) (l : List IdEntry) : (s.setTable t l).pdus = s.pdus := by cases t <;> rfl
@[simp] theorem State.setTable_pf (t : Table) (l : List IdEntry) : (s.setTable t l).pf = s.pf := by cases t <;> rfl
@[simp] theorem State.setTable_pfReason (t : Table) (l : List IdEntry) : (s.setTable t l).pfReason = s.pfReason := by cases t <;> rfl
@[simp] theorem State.setTable_saveBusy (t : Table) (l : List IdEntry) : (s.setTable t l).saveBusy = s.saveBusy := by cases t <;> rfl
@[simp] theorem State.setTable_inputs (t : Table) (l : List IdEntry) : (s.setTable t l).inputs = s.inputs := by cases t <;> rfl
@[simp] theorem State.setTable_events (t : Table) (l : List IdEntry) : (s.setTable t l).events = s.events := by cases t <;> rfl
@[simp] theorem State.setTable_paramAnswers (t : Table) (l : List IdEntry) : (s.setTable t l).paramAnswers = s.paramAnswers := by cases t <;> rfl
@[simp] theorem State.setTable_varAnswers (t : Table) (l : List IdEntry) : (s.setTable t l).varAnswers = s.varAnswers := by cases t <;> rfl
@[simp] theorem State.setTable_draws (t : Table) (l : List IdEntry) : (s.setTable t l).draws = s.draws := by cases t <;> rfl
@[simp] theorem State.setTable_tx_txm (l : List IdEntry) : (s.setTable .tx l).txm = l := rfl
@[simp] theorem State.setTable_tx_rxm (l : List IdEntry) : (s.setTable .tx l).rxm = s.rxm := rfl
@[simp] theorem State.setTable_rx_txm (l : List IdEntry) : (s.setTable .rx l).txm = s.txm := rfl
@[simp] theorem State.setTable_rx_rxm (l : List IdEntry) : (s.setTable .rx l).rxm = l := rfl

@[simp] theorem State.table_setTable_same (t : Table) (l : List IdEntry) : (s.setTable t l).table t = l := by
  cases t <;> rfl

theorem State.table_setTable_ne {t u : Table} (h : u ≠ t) (l : List IdEntry) :
    (s.setTable t l).table u = s.table u := by
  cases t <;> cases u <;> first | rfl | exact absurd rfl h

@[simp] theorem State.table_setPool (t : Table) (l : List Slot) : (s.setPool l).table t = s.table t := by
  cases t <;> rfl

@[simp] theorem State.slot_setTable (t : Table) (l : List IdEntry) (j : Nat) :
    (s.setTable t l).slot j = s.slot j := by
  cases t <;> rfl

@[simp] theorem State.isEmpty_setTable (t : Table) (l : List IdEntry) (e : IdEntry) :
    (s.setTable t l).isEmpty e = s.isEmpty e := by
  cases t <;> rfl

@[simp] theorem State.isEmpty_setPool (l : List Slot) (e : IdEntry) : (s.setPool l).isEmpty e = s.isEmpty e := rfl

@[simp] theorem State.entry_setPool (t : Table) (l : List Slot) (i : Nat) :
    (s.setPool l).entry t i = s.entry t i := by
  cases t <;> rfl

@[simp] theorem State.count_setPool (t : Table) (l : List Slot) : (s.setPool l).count t = s.count t := by
  cases t <;> rfl

end Sys2Proof.Machine
end

