-- ==== Sys2Proof/Laws/Map.lean ====
section
/-! SUPPORT. What each operation on the signal map can do: lists, lookups, insertion, removal (spec/10_state.md R30;
spec/42_map_admin.md R171, R174). -/

namespace Sys2Proof.Machine

/-! ## Lists -/

theorem State.walk_length_le (s : State) (fuel j : Nat) : (s.walk fuel j).length ≤ fuel := by
  induction fuel generalizing j with
  | zero => simp [State.walk]
  | succ n ih =>
    unfold State.walk
    split
    · simpa using ih _
    · simp

theorem State.walk_mem_lt (s : State) {fuel j c : Nat} (h : c ∈ s.walk fuel j) : c < s.cfg.maxItems := by
  induction fuel generalizing j with
  | zero => simp [State.walk] at h
  | succ n ih =>
    unfold State.walk at h
    split at h
    · rcases List.mem_cons.mp h with rfl | h
      · assumption
      · exact ih h
    · simp at h

/-- A list depends only on the links of its own cells. -/
theorem State.walk_congr {s t : State} (hm : t.cfg.maxItems = s.cfg.maxItems) {fuel j : Nat}
    (h : ∀ c ∈ s.walk fuel j, (t.slot c).next = (s.slot c).next) : t.walk fuel j = s.walk fuel j := by
  induction fuel generalizing j with
  | zero => rfl
  | succ n ih =>
    unfold State.walk at h ⊢
    rw [hm]
    split
    · rename_i hj
      rw [if_pos hj] at h
      rw [h j List.mem_cons_self, ih fun c hc => h c (List.mem_cons_of_mem _ hc)]
    · rfl

/-- The slots of an entry are the same in two states of one pool and one configuration. -/
theorem State.slotsOf_congr {s t : State} (hc : t.cfg = s.cfg) (hp : t.pool = s.pool) (e : IdEntry) :
    t.slotsOf e = s.slotsOf e := by
  unfold State.slotsOf
  rw [hc]
  exact State.walk_congr (by rw [hc]) fun c _ => by unfold State.slot; rw [hp]

theorem State.mem_mapped {s : State} {j : Nat} :
    j ∈ s.mapped ↔ ∃ t : Table, ∃ e ∈ s.live t, j ∈ s.slotsOf e := by
  unfold State.mapped
  rw [List.mem_flatMap]
  constructor
  · rintro ⟨e, he, hj⟩
    rcases List.mem_append.mp he with he | he
    · exact ⟨.tx, e, he, hj⟩
    · exact ⟨.rx, e, he, hj⟩
  · rintro ⟨t, e, he, hj⟩
    refine ⟨e, ?_, hj⟩
    cases t
    · exact List.mem_append.mpr (.inl he)
    · exact List.mem_append.mpr (.inr he)

theorem State.mapped_lt {s : State} {j : Nat} (h : j ∈ s.mapped) : j < s.cfg.maxItems := by
  obtain ⟨_, e, _, hj⟩ := State.mem_mapped.mp h
  exact s.walk_mem_lt hj

/-! ## Tables -/

theorem State.count_le (s : State) (t : Table) : s.count t ≤ (s.table t).length := List.countP_le_length

theorem State.live_length (s : State) (t : Table) : (s.live t).length = s.count t := by
  unfold State.live
  rw [List.length_take]
  exact Nat.min_eq_left (s.count_le t)

theorem State.live_getElem? (s : State) (t : Table) {i : Nat} (h : i < s.count t) :
    (s.live t)[i]? = some (s.entry t i) := by
  unfold State.live State.entry
  have hl : i < (s.table t).length := Nat.lt_of_lt_of_le h (s.count_le t)
  rw [List.getElem?_take_of_lt h, List.getElem?_eq_getElem hl]
  rfl

theorem State.mem_live {s : State} {t : Table} {e : IdEntry} :
    e ∈ s.live t ↔ ∃ i < s.count t, s.entry t i = e := by
  rw [List.mem_iff_getElem?]
  constructor
  · rintro ⟨i, hi⟩
    have hlt : i < s.count t := by
      rw [← s.live_length t]
      exact (List.getElem?_eq_some_iff.mp hi).1
    rw [s.live_getElem? t hlt] at hi
    exact ⟨i, hlt, Option.some.inj hi⟩
  · rintro ⟨i, hi, rfl⟩
    exact ⟨i, s.live_getElem? t hi⟩

theorem State.entry_setTable_same {s : State} {t : Table} {l : List IdEntry} (i : Nat) :
    (s.setTable t l).entry t i = (l[i]?).getD (IdEntry.atReset s.cfg) := by
  unfold State.entry
  simp

theorem State.entry_setTable_ne {s : State} {t u : Table} (h : u ≠ t) (l : List IdEntry) (i : Nat) :
    (s.setTable t l).entry u i = s.entry u i := by
  unfold State.entry
  rw [s.table_setTable_ne h, State.setTable_cfg]

/-- What `find` can answer (R141, R171). -/
theorem State.find_cases (s : State) (t : Table) (num : Word) :
    (s.find t num = none ∧ ∀ i < s.count t, canon s.cfg.idBuild (s.entry t i).id ≠ num) ∨
      ∃ i < s.count t, s.find t num = some i ∧ canon s.cfg.idBuild (s.entry t i).id = num ∧
        ∀ k < i, canon s.cfg.idBuild (s.entry t k).id ≠ num := by
  cases hf : s.find t num with
  | none =>
    refine .inl ⟨rfl, fun i hi => ?_⟩
    have := List.findIdx?_eq_none_iff.mp hf (s.entry t i) (State.mem_live.mpr ⟨i, hi, rfl⟩)
    simpa using this
  | some i =>
    obtain ⟨hi, hp, hlt⟩ := List.findIdx?_eq_some_iff_getElem.mp hf
    have hi' : i < s.count t := by rwa [s.live_length] at hi
    have key : ∀ k (hk : k < (s.live t).length), (s.live t)[k] = s.entry t k := by
      intro k hk
      have := s.live_getElem? t (by rwa [s.live_length] at hk : k < s.count t)
      rw [List.getElem?_eq_getElem hk] at this
      exact Option.some.inj this
    refine .inr ⟨i, hi', rfl, ?_, fun k hk => ?_⟩
    · simpa [key i hi] using hp
    · simpa [key k (Nat.lt_trans hk hi)] using hlt k hk

/-! ## Cells -/

theorem State.slot_setPool_set (s : State) (i j : Nat) (c : Slot) :
    (s.setPool (s.pool.set i c)).slot j = if i = j ∧ i < s.pool.length then c else s.slot j := by
  unfold State.slot
  simp only [State.setPool_pool, List.getElem?_set]
  by_cases hij : i = j
  · subst hij
    by_cases hl : i < s.pool.length
    · simp [hl]
    · simp [hl]
  · simp [hij]

/-- What `freeCell` can answer, for a pool of the right length (R171). -/
theorem State.freeCell_cases (s : State) (hlen : s.pool.length = s.cfg.maxItems + 1) :
    (s.freeCell = none ∧ ∀ j < s.cfg.maxItems, (s.slot j).next ≠ itemUnset) ∨
      ∃ j < s.cfg.maxItems, s.freeCell = some j ∧ (s.slot j).next = itemUnset ∧
        ∀ k < j, (s.slot k).next ≠ itemUnset := by
  have hl : (s.pool.take s.cfg.maxItems).length = s.cfg.maxItems := by rw [List.length_take]; omega
  have key : ∀ k (hk : k < (s.pool.take s.cfg.maxItems).length), (s.pool.take s.cfg.maxItems)[k] = s.slot k := by
    intro k hk
    have hk' : k < s.pool.length := by omega
    unfold State.slot
    rw [List.getElem_take, List.getElem?_eq_getElem hk']
    rfl
  cases hf : s.freeCell with
  | none =>
    refine .inl ⟨rfl, fun j hj => ?_⟩
    have hj' : j < (s.pool.take s.cfg.maxItems).length := by omega
    have := List.findIdx?_eq_none_iff.mp hf _ (List.getElem_mem hj')
    simpa [key j hj'] using this
  | some j =>
    obtain ⟨hj, hp, hlt⟩ := List.findIdx?_eq_some_iff_getElem.mp hf
    refine .inr ⟨j, by omega, rfl, ?_, fun k hk => ?_⟩
    · simpa [key j hj] using hp
    · simpa [key k (Nat.lt_trans hk hj)] using hlt k hk

/-! ## Insertion and removal -/

/-- Everything an insertion can answer, in the order of R255. -/
theorem State.add_cases (s : State) (t : Table) (b : Binding) :
    (s.saveBusy = true ∧ s.add t b = .fault .mutateWhileSaving) ∨
      (s.saveBusy = false ∧ s.cfg.paramLast ≤ b.param.toNat ∧ s.add t b = .fault .paramRange) ∨
      (s.saveBusy = false ∧ b.param.toNat < s.cfg.paramLast ∧
        ((∃ e, validate s.cfg b = some e ∧ s.add t b = .error e) ∨
          (validate s.cfg b = none ∧
            ((s.find t (pnum b.id) = none ∧ s.count t = s.cfg.maxMessages ∧ s.add t b = .error eMaxMessages) ∨
              (¬(s.find t (pnum b.id) = none ∧ s.count t = s.cfg.maxMessages) ∧
                ((s.freeCell = none ∧ s.add t b = .error eMaxItems) ∨
                  ∃ j, s.freeCell = some j ∧ s.add t b = .done (s.link t b (s.find t (pnum b.id)) j))))))) := by
  cases hb : s.saveBusy with
  | true => exact .inl ⟨rfl, by unfold State.add; rw [if_pos hb]⟩
  | false =>
    refine .inr ?_
    by_cases hp : s.cfg.paramLast ≤ b.param.toNat
    · exact .inl ⟨rfl, hp, by unfold State.add; simp [hb, hp]⟩
    refine .inr ⟨rfl, by omega, ?_⟩
    cases hv : validate s.cfg b with
    | some e => exact .inl ⟨e, rfl, by unfold State.add; simp [hb, hp, hv]⟩
    | none =>
      refine .inr ⟨rfl, ?_⟩
      by_cases hm : s.find t (pnum b.id) = none ∧ s.count t = s.cfg.maxMessages
      · exact .inl ⟨hm.1, hm.2, by unfold State.add; simp [hb, hp, hv, hm]⟩
      refine .inr ⟨hm, ?_⟩
      cases hf : s.freeCell with
      | none => exact .inl ⟨rfl, by unfold State.add; simp only [hb, hp, hv, hm, hf]; rfl⟩
      | some j => exact .inr ⟨j, rfl, by unfold State.add; simp only [hb, hp, hv, hm, hf]; rfl⟩

/-- What a search of one list can find (R174). -/
theorem State.findInList_some {s : State} {param : BitVec 16} {prev q : Option Nat} {js : List Nat} {j : Nat}
    (h : s.findInList param prev js = some (q, j)) :
    ∃ before after, js = before ++ j :: after ∧ (s.slot j).param = param ∧
      (∀ c ∈ before, (s.slot c).param ≠ param) ∧ q = (before.getLast?).or prev := by
  induction js generalizing prev with
  | nil => simp [State.findInList] at h
  | cons c cs ih =>
    unfold State.findInList at h
    split at h
    · rename_i hc
      obtain ⟨rfl, rfl⟩ := Prod.mk.inj (Option.some.inj h)
      exact ⟨[], cs, rfl, hc, by simp, rfl⟩
    · rename_i hc
      obtain ⟨before, after, rfl, hp, hb, rfl⟩ := ih h
      refine ⟨c :: before, after, rfl, hp, ?_, ?_⟩
      · intro d hd
        rcases List.mem_cons.mp hd with rfl | hd
        · exact hc
        · exact hb d hd
      · cases before with
        | nil => rfl
        | cons b bs => simp [List.getLast?_eq_some_getLast]

theorem State.findInList_none {s : State} {param : BitVec 16} {prev : Option Nat} {js : List Nat} :
    s.findInList param prev js = none ↔ ∀ c ∈ js, (s.slot c).param ≠ param := by
  induction js generalizing prev with
  | nil => simp [State.findInList]
  | cons c cs ih =>
    unfold State.findInList
    split
    · rename_i hc
      simp [hc]
    · rename_i hc
      rw [ih]
      simp [hc]

/-- What a search of some entries can find (R174). -/
theorem State.findInEntries_some {s : State} {t : Table} {param : BitVec 16} {i : Nat} {es : List IdEntry}
    {pl : SlotPlace} (h : s.findInEntries t param i es = some pl) :
    ∃ before e after, es = before ++ e :: after ∧ pl.tbl = t ∧ pl.entry = i + before.length ∧
      (∀ e' ∈ before, ∀ c ∈ s.slotsOf e', (s.slot c).param ≠ param) ∧
      s.findInList param none (s.slotsOf e) = some (pl.prev, pl.cell) := by
  induction es generalizing i with
  | nil => simp [State.findInEntries] at h
  | cons e es ih =>
    unfold State.findInEntries at h
    split at h
    · rename_i q j hq
      obtain rfl := Option.some.inj h
      exact ⟨[], e, es, rfl, rfl, rfl, by simp, hq⟩
    · rename_i hq
      obtain ⟨before, e', after, rfl, ht, hi, hb, hf⟩ := ih h
      refine ⟨e :: before, e', after, rfl, ht, by simp; omega, ?_, hf⟩
      intro d hd
      rcases List.mem_cons.mp hd with rfl | hd
      · exact State.findInList_none.mp hq
      · exact hb d hd

theorem State.findInEntries_none {s : State} {t : Table} {param : BitVec 16} {i : Nat} {es : List IdEntry} :
    s.findInEntries t param i es = none ↔ ∀ e ∈ es, ∀ c ∈ s.slotsOf e, (s.slot c).param ≠ param := by
  induction es generalizing i with
  | nil => simp [State.findInEntries]
  | cons e es ih =>
    unfold State.findInEntries
    split
    · rename_i q j hq
      obtain ⟨b, a, he, hp, _⟩ := State.findInList_some hq
      simp only [reduceCtorEq, false_iff]
      intro hall
      exact hall e List.mem_cons_self j (by rw [he]; simp) hp
    · rename_i hq
      rw [ih, List.forall_mem_cons]
      exact (and_iff_right (State.findInList_none.mp hq)).symm

end Sys2Proof.Machine
end

