-- ==== Sys2Proof/Laws/PerInstr.lean ====
section
/-! SUPPORT. One lemma for each command: its record carries its opcode in `W0[7:0]` (spec/30_encoding.md R80, R86). -/

namespace Sys2Proof.Laws.OpcodeByte

/-- The record's low byte is the command's opcode. -/
def Statement (i : Instr) : Prop := (encode i).extractLsb' 0 8 = i.opcode

/-- The low byte of a record whose `W0` ends in `op`. -/
theorem low_byte (w2 w1 : BitVec 64) (hi : BitVec 56) (op : Byte) :
    (recordOf w2 w1 (hi ++ op)).extractLsb' 0 8 = op := by
  unfold recordOf
  ext k hk
  simp only [BitVec.getElem_extractLsb', BitVec.getLsbD_append]
  rw [if_pos (by omega)]
  simp [hk]

theorem fxGet (p : Payload) (f : FieldRef) (sg : Bool) : Statement (.fxGet p f sg) := low_byte _ _ _ _
theorem fxOr (p : Payload) (f : FieldRef) (val : Word) : Statement (.fxOr p f val) := low_byte _ _ _ _
theorem fxIns (p : Payload) (f : FieldRef) (val : Word) : Statement (.fxIns p f val) := low_byte _ _ _ _
theorem fxDec (p : Payload) (f : FieldRef) (sg : Bool) (gain : F32) (ofs : Byte) :
    Statement (.fxDec p f sg gain ofs) := low_byte _ _ _ _
theorem fxEnc (p : Payload) (f : FieldRef) (val gain : F32) (ofs : Byte) :
    Statement (.fxEnc p f val gain ofs) := low_byte _ _ _ _
theorem frameRx (id : Word) (p : Payload) (dlc : BitVec 4) : Statement (.frameRx id p dlc) := low_byte _ _ _ _
theorem frameTxall : Statement .frameTxall := low_byte _ _ _ _
theorem mapAddrx (b : Binding) : Statement (.mapAddrx b) := low_byte _ _ _ _
theorem mapAddtx (b : Binding) : Statement (.mapAddtx b) := low_byte _ _ _ _
theorem mapRm (param : BitVec 16) : Statement (.mapRm param) := low_byte _ _ _ _
theorem mapClr : Statement .mapClr := low_byte _ _ _ _
theorem mapRereg : Statement .mapRereg := low_byte _ _ _ _
theorem mapRde (tbl : Table) (idx : BitVec 16) : Statement (.mapRde tbl idx) := low_byte _ _ _ _
theorem mapRds (idx : BitVec 16) : Statement (.mapRds idx) := low_byte _ _ _ _
theorem pduPack (k : Byte) : Statement (.pduPack k) := low_byte _ _ _ _
theorem pduUnpack (k : Byte) (p : Payload) : Statement (.pduUnpack k p) := low_byte _ _ _ _
theorem pduStat (k : Byte) : Statement (.pduStat k) := low_byte _ _ _ _
theorem crc8Calc (p : Payload) (init poly : Byte) : Statement (.crc8Calc p init poly) := low_byte _ _ _ _

end Sys2Proof.Laws.OpcodeByte
end

