-- ==== Sys2Proof/Laws/Step.lean ====
section
/-! SUPPORT. Everything a step can do, said once. -/

namespace Sys2Proof.Machine

/-- If a step gives a next state, the configuration is one the spec allows and the step was idle, a new level of
`save_busy`, a reset, an illegal opcode or a command. -/
theorem step_cases {s t : State} (h : step s = .next t) :
    s.cfg.wf = true ∧
      ((s.inputs = [] ∧ t = s) ∨
        (∃ level rest, s.inputs = .saveBusy level :: rest ∧ t = (s.setInputs rest).setSaveBusy level) ∨
        (∃ rest, s.inputs = .reset :: rest ∧ t = (s.setInputs rest).afterReset) ∨
        ∃ cr rest, s.inputs = .command cr :: rest ∧ s.pf = false ∧
          ((∃ op, decode cr = .illegalOpcode op ∧ t = (s.setInputs rest).illegalOpcode) ∨
            ∃ i, decode cr = .command i ∧ exec i (s.setInputs rest) = .next t)) := by
  unfold step at h
  cases hw : s.cfg.wf with
  | false => simp [State.accept, hw] at h
  | true =>
    refine ⟨rfl, ?_⟩
    unfold State.accept at h
    rw [hw] at h
    cases hi : s.inputs with
    | nil =>
      simp only [hi] at h
      exact .inl ⟨rfl, (Host.Outcome.next.inj h).symm⟩
    | cons x rest =>
      refine .inr ?_
      cases x with
      | saveBusy level =>
        simp only [hi] at h
        exact .inl ⟨level, rest, rfl, (Host.Outcome.next.inj h).symm⟩
      | reset =>
        simp only [hi] at h
        exact .inr (.inl ⟨rest, rfl, (Host.Outcome.next.inj h).symm⟩)
      | command cr =>
        refine .inr (.inr ⟨cr, rest, rfl, ?_⟩)
        cases hp : s.pf with
        | true => simp [hi, hp] at h
        | false =>
          refine ⟨rfl, ?_⟩
          simp only [hi, hp, State.takeCommand] at h
          cases hd : decode cr with
          | command i =>
            simp only [hd] at h
            exact .inr ⟨i, rfl, h⟩
          | illegalOpcode op =>
            simp only [hd] at h
            exact .inl ⟨op, rfl, (Host.Outcome.next.inj h).symm⟩

end Sys2Proof.Machine
end

