-- ==== Sys2Proof/Tests/Slice0.lean ====
section
/-! SUPPORT. The model's own tests. Expected values are those of spec/30_encoding.md R91, of the examples of the command
rules and of spec/95_test_vectors.md (named before each group), and one witness for each statement with hypotheses. -/

-- One test at a time: a thread for each of them would need more memory than the checks allow.
set_option Elab.async false

namespace Sys2Proof.Tests

open Sys2Proof.Machine

/-! ## Helpers -/

/-- The next state of an outcome, if it is one. -/
def nextOf (r : Result) : Option State :=
  match r with
  | .next t => some t
  | .fault _ => none
  | .refused _ => none

/-- The next state of a command in a state it completes in, else that state. -/
def ran (i : Instr) (s : State) : State := (nextOf (exec i s)).getD s

/-- A field. -/
def le (pos width : Nat) : FieldRef := { pos := pos, width := width, be := false }

/-- A big-endian field. -/
def be (pos width : Nat) : FieldRef := { pos := pos, width := width, be := true }

/-- A binding with gain 1.0, offset 0, unsigned. -/
def binding (param id bpos : Nat) (nb : Int) : Binding :=
  { id := BitVec.ofNat 32 id
    param := BitVec.ofNat 16 param
    bpos := BitVec.ofNat 8 bpos
    nb := BitVec.ofInt 8 nb
    sg := false
    gain := 0x3F800000#32
    ofs := 0#8 }

/-- A live cell with gain 1.0, offset 0, unsigned. -/
def cell (param bpos : Nat) (nb : Int) (link : Nat) : Slot := bindingSlot (binding param 0 bpos nb) (BitVec.ofNat 8 link)

/-- A live entry. -/
def live (id first : Nat) : IdEntry := { id := BitVec.ofNat 32 id, first := BitVec.ofNat 16 first, written := true }

/-- An empty entry of the example configuration. -/
def empty : IdEntry := IdEntry.atReset Params.example

/-- Transmit 0x200 with cells 0, 1 and 0x300 with cell 2; receive 0x100 with cell 3; cells 4 to 7 free. -/
def demo : State :=
  { State.reset with
    txm := [live 0x200 0, live 0x300 2, empty, empty]
    rxm := [live 0x100 3, empty, empty, empty]
    pool := [cell 1 0 8 1, cell 2 4 8 8, cell 6 0 8 8, cell 3 7 (-8) 8] ++
      List.replicate 4 (Slot.atReset itemUnset) ++ [Slot.atReset 8#8] }

/-- `demo` with every transmit entry taken and every cell live. -/
def full : State :=
  { demo with
    txm := [live 0x200 0, live 0x300 2, live 0x301 4, live 0x302 5]
    pool := [cell 1 0 8 1, cell 2 4 8 8, cell 6 0 8 8, cell 3 7 (-8) 6, cell 7 0 8 8, cell 8 0 8 8, cell 9 0 8 7,
      cell 10 0 8 8, Slot.atReset 8#8] }

/-- A state during a save. -/
def saving : State := { demo with saveBusy := true }

/-- A state after a protocol fault. -/
def faulted : State := { demo with pf := true, pfReason := some .paramRange }

/-- `s` with inputs pending. -/
def pending (s : State) (l : List Input) : State := { s with inputs := l }

/-- A record by its words. -/
def rec3 (w0 w1 w2 : Nat) : Record := recordOf (BitVec.ofNat 64 w2) (BitVec.ofNat 64 w1) (BitVec.ofNat 64 w0)

/-! ## Well-formedness: each check refuses its ill-formed term -/

theorem test_wf_pos : (Instr.fxGet 0#64 (le 64 8) false).wf = false := by decide
theorem test_wf_width_zero : (Instr.fxIns 0#64 (le 0 0) 0#32).wf = false := by decide
theorem test_wf_width_over : (Instr.fxOr 0#64 (be 0 33) 0#32).wf = false := by decide
theorem test_wf_dec : (Instr.fxDec 0#64 (be 64 1) false 0#32 0#8).wf = false := by decide
theorem test_wf_enc : (Instr.fxEnc 0#64 (le 3 40) 0#32 0#32 0#8).wf = false := by decide
theorem test_wf_good : (Instr.fxGet 0#64 (be 63 32) true).wf = true := by decide

/-! ## Decoding: words written out in the spec (95_test_vectors.md section 6, R91), or bit by bit from R81 to R84 -/

theorem test_decode_fxGet :
    decodeTableWord 192 ((rec3 0x000000000001DC10 0x0000000FF0000000 0).toNat) =
      some (.fxGet 0x0000000FF0000000#64 (le 28 8) false) := by decide
theorem test_decode_fxGet_signed :
    decode (rec3 0x00000000001BC710 0xF1FF 0) = .command (.fxGet 0xF1FF#64 (be 7 16) true) := by decide
theorem test_decode_fxOr :
    decode (rec3 0x0000000F0001C411 0x0F 0) = .command (.fxOr 0x0F#64 (le 4 8) 0x0F#32) := by decide
theorem test_decode_fxIns :
    decode (rec3 0x00001234000BC712 0xF1FF 0) = .command (.fxIns 0xF1FF#64 (be 7 16) 0x1234#32) := by decide
theorem test_decode_fxDec :
    decode (rec3 0x00000000000BC713 0x3412 0x000000D83F000000) =
      .command (.fxDec 0x3412#64 (be 7 16) false 0x3F000000#32 0xD8#8) := by decide
theorem test_decode_fxEnc :
    decode (rec3 0xC0700000000BC714 0 0x0000000040800000) =
      .command (.fxEnc 0#64 (be 7 16) 0xC0700000#32 0x40800000#32 0#8) := by decide
theorem test_decode_frameRx :
    decode (rec3 0x18FF50E500000820 0xC838FF 0) = .command (.frameRx 0x18FF50E5#32 0xC838FF#64 8#4) := by decide
theorem test_decode_frameTxall : decode (rec3 0x21 0 0) = .command .frameTxall := by decide
theorem test_decode_mapAddrx :
    decode (rec3 0x18FF50E501F00730 4 0x3F000000) =
      .command (.mapAddrx { binding 4 0x18FF50E5 7 (-16) with sg := true, gain := 0x3F000000#32 }) := by decide
theorem test_decode_mapAddtx :
    decode (rec3 0x2000001000F00731 3 0x000000D83F000000) =
      .command (.mapAddtx { binding 3 0x20000010 7 (-16) with gain := 0x3F000000#32, ofs := 0xD8#8 }) := by decide
theorem test_decode_mapRm : decode (rec3 0x32 1 0) = .command (.mapRm 1#16) := by decide
theorem test_decode_mapClr : decode (rec3 0x33 0 0) = .command .mapClr := by decide
theorem test_decode_mapRereg : decode (rec3 0x34 0 0) = .command .mapRereg := by decide
theorem test_decode_mapRde : decode (rec3 0x35 0x10000 0) = .command (.mapRde .tx 1#16) := by decide
theorem test_decode_mapRde_rx : decode (rec3 0x35 0x100020000 0) = .command (.mapRde .rx 2#16) := by decide
theorem test_decode_mapRds : decode (rec3 0x36 0x10000 0) = .command (.mapRds 1#16) := by decide
theorem test_decode_pduPack : decode (rec3 0x0240 0 0) = .command (.pduPack 2#8) := by decide
theorem test_decode_pduUnpack :
    decode (rec3 0x41 0x280100000FFB0082 0) = .command (.pduUnpack 0#8 0x280100000FFB0082#64) := by decide
theorem test_decode_pduStat : decode (rec3 0x42 0 0) = .command (.pduStat 0#8) := by decide
theorem test_decode_crc8Calc : decode (rec3 0x1DFF0043 0 0) = .command (.crc8Calc 0#64 0xFF#8 0x1D#8) := by decide
theorem test_decode_illegal : decode (rec3 0x15 0 0) = .illegalOpcode 0x15#8 := by decide
/-- Reserved W0[31:21] set (R81). -/
theorem test_decode_reserved :
    decode (rec3 0x00000000FFE1DC10 0x0000000FF0000000 0xFFFFFFFFFFFFFFFF) =
      .command (.fxGet 0x0000000FF0000000#64 (le 28 8) false) := by decide
/-- R91. -/
theorem test_encode_addtx :
    encode (.mapAddtx (binding 5 0x200 0 16)) = rec3 0x0000020000100031 5 0x3F800000 := by decide

/-! ## The codec (95_test_vectors.md sections 1, 2) -/

/-- S1. -/
theorem test_fxGet_straddle : (ran (.fxGet 0x0000000FF0000000#64 (le 28 8) false) demo).rv = 0xFF#32 := by decide
/-- S8. -/
theorem test_fxGet_signed : (ran (.fxGet 0xFFF#64 (le 0 12) true) demo).rv = 0xFFFFFFFF#32 := by decide
/-- Section 2.2, five bytes. -/
theorem test_get_be_five_bytes : getField 0xF0DEBC9A78563412#64 (be 3 32) = 0x23456789#32 := by decide
/-- Section 2.2, past byte 7. -/
theorem test_get_be_past_end : getField 0x0100000000000000#64 (be 56 8) = 0x80#32 := by decide
/-- Section 2.4. -/
theorem test_fxOr_be : (ran (.fxOr 0#64 (be 12 12) 0x123#32) demo).rp = 0x460200#64 := by decide
/-- S4. -/
theorem test_fxOr_merge : (ran (.fxOr 0x0F#64 (le 4 8) 0x0F#32) demo).rp = 0xFF#64 := by decide
/-- Section 2.5. -/
theorem test_fxIns_be : (ran (.fxIns 0xFFFFFFFFFFFFFFFF#64 (be 3 12) 0#32) demo).rp = 0xFFFFFFFFFFFF00F0#64 := by
  decide
/-- R112. -/
theorem test_fxIns_le : (ran (.fxIns 0xFFFF#64 (le 4 8) 0#32) demo).rp = 0xF00F#64 := by decide
/-- R113: (200 - 40) * 0.5 = 80.0. -/
theorem test_fxDec : (ran (.fxDec 200#64 (le 0 8) false 0x3F000000#32 0xD8#8) demo).rf = 0x42A00000#32 := by
  decide +kernel
/-- Section 3.1: -5 * 0.0 = -0.0. -/
theorem test_c4Dec_negative_zero : c4Dec (-5) 0#8 0#32 = 0x80000000#32 := by decide +kernel
/-- R114. -/
theorem test_fxEnc : (ran (.fxEnc 0#64 (le 0 8) 0x41C80000#32 0x40000000#32 80#8) demo).rp = 0x82#64 := by
  decide +kernel
/-- P5 step 1: -3.75 * 4.0 = -15. -/
theorem test_fxEnc_be :
    (ran (.fxEnc 0#64 (be 7 16) 0xC0700000#32 0x40800000#32 0#8) demo).rp = 0xF1FF#64 := by decide +kernel
/-- Section 3.1: i2f rounds 16777217 to 16777216.0. -/
theorem test_i2f_rounds : i2f 16777217 = 0x4B800000#32 := by decide +kernel
/-- Section 3.3: -2.5 rounds away from zero. -/
theorem test_repr_half : f2iRound 0#32 (f32Mul 0xBDA00000#32 0x42000000#32) = BitVec.ofInt 32 (-3) := by decide +kernel

/-! ## Frames (95_test_vectors.md sections 5.3 and 6) -/

/-- R142: 165 * 32 = 5280. -/
theorem test_frameRx :
    (ran (.frameRx 0x100#32 0xA5#64 8#4) demo).events = [.paramWrite 3#16 (.fixed 5280#32)] := by decide +kernel
/-- Section 5.3: bit 30 is compared. -/
theorem test_frameRx_high_bit : (ran (.frameRx 0x40000100#32 0xA5#64 8#4) demo).events = [] := by decide
/-- S4, program P1: 15.0 and 15.0 merge to 0xFF. -/
theorem test_frameTxall :
    (ran .frameTxall { demo with paramAnswers := [0x41700000#32, 0x41700000#32, 0x40E00000#32] }).events =
      [.send 0x200#32 0xFF#32 0#32 8#4, .send 0x300#32 7#32 0#32 8#4] := by decide +kernel
theorem test_frameTxall_saving : (ran .frameTxall saving).events = [] := by decide

/-! ## Map administration (95_test_vectors.md sections 5.1, 5.2; R172 to R178) -/

/-- R172. -/
theorem test_mapAddrx : (ran (.mapAddrx (binding 3 0x100 7 (-8))) State.reset).events = [.filter 0x100#32] := by
  decide +kernel
/-- Section 5.1: OFS before ID. -/
theorem test_mapAddrx_order :
    (ran (.mapAddrx (binding 3 0x40000000 64 8)) State.reset).rc = BitVec.ofInt 32 (-2) := by decide
/-- R173. -/
theorem test_mapAddtx : (ran (.mapAddtx (binding 5 0x200 0 16)) State.reset).txm =
    [live 0x200 0, empty, empty, empty] := by decide +kernel
/-- Section 5.1: `bpos` 57, `nb` -3 is E_INVALID_OFS. -/
theorem test_mapAddtx_be_bound : (ran (.mapAddtx (binding 5 0x100 57 (-3))) State.reset).rc = BitVec.ofInt 32 (-2) := by
  decide
/-- R174: the last entry is copied into the vacated index. -/
theorem test_mapRm_compacts : ((ran (.mapRm 1#16) { demo with
    txm := [live 0x100 0, live 0x200 2, empty, empty]
    pool := demo.pool.set 0 (cell 1 0 8 8) }).txm.take 1) = [live 0x200 2] := by decide +kernel
theorem test_mapRm_absent : (ran (.mapRm 15#16) demo).rc = 0#32 := by decide +kernel
theorem test_mapClr : (ran .mapClr demo).count .tx = 0 := by decide +kernel
/-- Section 5.3. -/
theorem test_mapRereg : (ran .mapRereg { demo with rxm := [live 0x100 3, live 0x20000123 2, empty, empty] }).events =
    [.filter 0x100#32, .filter 0x20000123#32] := by decide
/-- R177. -/
theorem test_mapRde : (ran (.mapRde .rx 0#16) demo).rv = 0x100#32 := by decide
theorem test_mapRde_index : (ran (.mapRde .tx 4#16) demo).rc = BitVec.ofInt 32 (-17) := by decide
/-- R178, with MAX_ITEMS = 8. -/
theorem test_mapRds : (ran (.mapRds 3#16) demo).rv = 0xF8080003#32 := by decide
/-- Section 5.2: the sentinel cell. -/
theorem test_mapRds_sentinel : (demo.shownSlot (demo.slot 8)).next = 8#8 := rfl
/-- Section 5.2: the classic build's stored form. -/
theorem test_stored_classic : storedId .classic 0x20000123#32 = 0x923#32 := by decide
theorem test_pub_classic : pubId .classic 0x923#32 = 0x20000123#32 := by decide

/-! ## PDU and CRC (95_test_vectors.md section 4) -/

/-- Section 4.3, pack 1. -/
theorem test_pduPack :
    (ran (.pduPack 0#8) { State.reset with varAnswers := [0x41C80000#32, 0xC0A00000#32] }).rp =
      0x280100000FFB0082#64 := by decide +kernel
/-- Section 4.4. -/
theorem test_pduUnpack : (ran (.pduUnpack 0#8 0x280100000FFB0082#64) State.reset).events =
    [.varWrite 0#8 0 0x41C80000#32, .varWrite 0#8 1 0xC0A00000#32] := by decide +kernel
theorem test_pduUnpack_bad : (ran (.pduUnpack 0#8 0x280100000FFB0083#64) State.reset).ok = false := by decide +kernel
theorem test_pduStat : (ran (.pduStat 1#8) State.reset).rc = BitVec.ofInt 32 (-17) := by decide
/-- R216. -/
theorem test_crc8Calc : (ran (.crc8Calc 0#64 0xFF#8 0x1D#8) State.reset).rv = 0x16#32 := by decide +kernel
/-- Section 4.1. -/
theorem test_crc8Default_bytes : crc8Default 0x0807060504030201#64 0xFF#8 0x1D#8 = 0x4B#8 := by decide +kernel

/-! ## The step -/

/-- The record of P1 step 1 runs as the first command after reset. -/
theorem test_step_addtx :
    ((nextOf (step (State.reset.withFetchWord 192 (rec3 0x0000020000080031 1 0x3F800000).toNat))).map (·.rc)) =
      some 1#32 := by decide +kernel
/-- Section 5.2: opcode 0x00. -/
theorem test_step_illegal :
    ((nextOf (step (State.reset.withFetchWord 192 0))).map (·.rc)) = some (BitVec.ofInt 32 (-16)) := by decide

/-! ## Witnesses: for each statement with hypotheses, values that meet them together -/

theorem witness_DecodeOfEncode : (Instr.fxDec 1#64 (be 63 32) true 2#32 3#8).wf = true := by decide
theorem witness_EncodeOfDecode : decode (rec3 0xFFFFFFFFFFFFFF10 5 7) = .command (.fxGet 5#64 (be 63 32) true) := by decide
theorem witness_UnusedBitsAreIgnored :
    decode (rec3 0xFF21 1 2) = .command .frameTxall ∧
      rec3 0xFF21 1 2 &&& usedBits .frameTxall = rec3 0x21 0 0 &&& usedBits .frameTxall := by decide
theorem witness_IllegalOpcodeWritesOnlyRc :
    (pending demo [.command (rec3 0x44 0 0)]).cfg.wf = true ∧ demo.pf = false ∧
      (rec3 0x44 0 0).toNat % 256 ∉ [0x10, 0x11, 0x12, 0x13, 0x14, 0x20, 0x21, 0x30, 0x31, 0x32, 0x33, 0x34, 0x35,
        0x36, 0x40, 0x41, 0x42, 0x43] := by decide +kernel
theorem witness_StepRunsTheDecodedCommand :
    (pending demo [.command (rec3 0x33 0 0)]).cfg.wf = true ∧ demo.pf = false ∧
      decode (rec3 0x33 0 0) = .command .mapClr := by decide +kernel
theorem witness_ProtocolFaults :
    (Mutates .mapClr = true ∧ saving.saveBusy = true) ∧
      (demo.saveBusy = false ∧ demo.cfg.paramLast ≤ (binding 16 0x100 0 8).param.toNat) ∧
      faulted.cfg.wf = true ∧ faulted.pf = true := by decide +kernel
theorem witness_FaultBitIsSticky :
    (∃ t, exec .mapClr saving = .next t ∧ saving.pf = false ∧ t.pf = true) ∧
      (∃ t, exec .mapRereg faulted = .next t ∧ faulted.pf = true) ∧
      ∃ t, step (pending faulted [.reset]) = .next t ∧ (pending faulted [.reset]).pf = true ∧ t.pf = false :=
  ⟨⟨_, rfl, rfl, rfl⟩, ⟨_, rfl, rfl⟩, ⟨_, rfl, rfl, rfl⟩⟩
theorem witness_ResetEventClearsTheBlock :
    (pending faulted [.reset]).cfg.wf = true ∧ (pending faulted [.reset]).inputs = [.reset] := by decide +kernel
theorem witness_ResetValues : Params.example.wf = true := by decide +kernel
theorem witness_ResetMeetsTheMapInvariants : Params.example.wf = true := by decide +kernel
theorem witness_ResetMeetsPduAndFaultInvariants : Params.example.wf = true := by decide +kernel
theorem witness_SaveBusyInputAndIdle :
    (pending faulted [.saveBusy true]).cfg.wf = true ∧ demo.cfg.wf = true ∧ demo.inputs = [] := by decide +kernel
theorem witness_MapInv : demo.MapInv := by decide +kernel
theorem witness_MapInv_full : full.MapInv := by decide +kernel
theorem witness_ErrorsWriteOnlyRc :
    demo.MapInv ∧ (ran (.mapRds 9#16) demo).pf = false ∧ 
      (ran (.mapRds 9#16) demo).rc ∈ [eInvalidId, eInvalidOfs, eInvalidLen, eMaxMessages, eMaxItems, eIndex] := by decide +kernel
theorem witness_ErrorsWriteOnlyRc_runs : ∃ t, exec (.mapRds 9#16) demo = .next t := ⟨_, rfl⟩
theorem witness_CommandsKeepTheEnvironment : ∃ t, exec .mapRereg demo = .next t := ⟨_, rfl⟩
theorem witness_OnlyMutationsChangeTheMap : Mutates .mapRereg = false ∧ ∃ t, exec .mapRereg demo = .next t :=
  ⟨rfl, _, rfl⟩
theorem witness_SaveInProgressFreezesTheMap : saving.saveBusy = true ∧ ∃ t, exec .mapRereg saving = .next t :=
  ⟨rfl, _, rfl⟩
theorem witness_PduStateChangesOnlyInItsCommands :
    ∃ t, exec (.pduPack 1#8) demo = .next t ∧ (∀ c : Byte, Instr.pduPack 1#8 = .pduPack c → c.toNat ≠ 0) ∧
      ∀ (c : Byte) (p : Payload), Instr.pduPack 1#8 = .pduUnpack c p → c.toNat ≠ 0 :=
  ⟨_, rfl, fun c h => by cases h; decide, fun c p h => by cases h⟩
theorem witness_OracleAnswersAreTakenInOrder :
    (∃ t, exec .frameTxall demo = .next t) ∧ demo.saveBusy = false ∧ (∃ t, exec (.pduPack 0#8) demo = .next t) ∧
      demo.cfg.schemas[(0#8).toNat]? = some exampleSchema :=
  ⟨⟨_, rfl⟩, rfl, ⟨_, rfl⟩, rfl⟩
/-- 25.0 * 2.0 + 80 converts without a draw; and a count of draws some state holds. -/
theorem witness_PureCommandsRepeat :
    (∀ d d' : Word, f2iTrunc d (f32Add (f32Mul 0x41C80000#32 0x40000000#32) (i2f (80#8).toInt)) =
      f2iTrunc d' (f32Add (f32Mul 0x41C80000#32 0x40000000#32) (i2f (80#8).toInt))) ∧ ∃ m, demo.draws = m := by
  have h : f32Add (f32Mul 0x41C80000#32 0x40000000#32) (i2f (80#8).toInt) = 0x43020000#32 := by decide +kernel
  rw [h]
  exact ⟨fun _ _ => rfl, _, rfl⟩
theorem witness_StepKeepsTheMapInvariants :
    (pending demo [.reset]).MapInv ∧ (nextOf (step (pending demo [.reset]))).isSome = true := by decide +kernel
theorem witness_StepKeepsPduAndFaultInvariants :
    (pending demo [.reset]).PduInv ∧ (pending demo [.reset]).PfInv ∧
      (nextOf (step (pending demo [.reset]))).isSome = true := by decide +kernel
theorem witness_LiveSlotsAreCounted : demo.MapInv := witness_MapInv

/-- Boundary fields for the FX statements: both byte orders, the narrowest and the widest, at both ends. -/
theorem witness_Fx_fields :
    (le 0 1).wf = true ∧ (le 63 32).wf = true ∧ (be 0 32).wf = true ∧ (be 63 1).wf = true := by decide
theorem witness_FxGetReadsItsField : (le 63 32).wf = true := by decide
theorem witness_FxOrDepositsItsField : (be 56 32).wf = true := by decide
theorem witness_FxInsReplacesItsField : (be 0 1).wf = true := by decide
theorem witness_InsertOfTheReadValue : (be 56 32).wf = true := by decide
theorem witness_FxEncScalesItsValue : (le 63 32).wf = true := by decide
theorem witness_FxDecIsExactOnSmallFields : (be 0 24).wf = true ∧ (be 0 24).width ≤ 24 := by decide
theorem witness_FxEncIsExactOnSmallIntegers :
    (le 0 32).wf = true ∧ -(2 ^ 24) ≤ (2 ^ 24 : Int) ∧ (2 ^ 24 : Int) ≤ 2 ^ 24 := by decide
theorem witness_LittleEndianRoundTrip : 1 ≤ 32 ∧ 32 ≤ 32 ∧ 32 + 32 ≤ 64 := by decide
theorem witness_BigEndianRoundTrip : 1 ≤ 32 ∧ 32 ≤ 32 ∧ 39 ≤ 63 ∧ 32 ≤ 8 * (7 - 39 / 8) + 39 % 8 + 1 := by decide
theorem witness_SignedAllOnesIsMinusOne : 2 ≤ 32 ∧ fieldFits (be 39 32) ∧ fieldFits (le 62 2) := by decide
theorem witness_OrMergeLaws :
    [(le 0 8, 1#32), (be 7 8, 2#32)].Perm [(be 7 8, 2#32), (le 0 8, 1#32)] := by decide

theorem witness_FrameRxDecodesItsEntry :
    saving.saveBusy = true ∧
      (∀ i < demo.count .rx, canon demo.cfg.idBuild (demo.entry .rx i).id ≠ 0x101#32 &&& 0xDFFFFFFF#32) ∧
      demo.MapInv ∧ demo.saveBusy = false ∧ 0 < demo.count .rx ∧
      canon demo.cfg.idBuild (demo.entry .rx 0).id = 0x100#32 &&& 0xDFFFFFFF#32 := by decide +kernel
theorem witness_ReceivedHighBitsNeverMatch :
    demo.MapInv ∧ ((0x40000100#32).getLsbD 30 = true ∨ (0x40000100#32).getLsbD 31 = true) := by decide +kernel
theorem witness_FrameTxallSendsEveryEntry :
    saving.saveBusy = true ∧ demo.MapInv ∧ demo.saveBusy = false ∧ demo.count .tx = 2 := by decide +kernel
theorem witness_InvalidBindingsAreRejected :
    demo.saveBusy = false ∧ (binding 1 0x100 57 8).param.toNat < demo.cfg.paramLast ∧
      bindingError demo.cfg (binding 1 0x100 57 8) = some eInvalidOfs ∧
      bindingError demo.cfg (binding 1 0x40000000 0 8) = some eInvalidId ∧
      bindingError demo.cfg (binding 1 0x100 0 33) = some eInvalidLen ∧
      bindingError demo.cfg (binding 1 0x100 56 (-2)) = some eInvalidOfs ∧
      bindingError demo.cfg (binding 1 0x100 56 8) = none ∧ bindingError demo.cfg (binding 1 0x100 56 (-1)) = none := by
  decide +kernel
theorem witness_CapacityErrors :
    full.saveBusy = false ∧ (binding 1 0x400 0 8).param.toNat < full.cfg.paramLast ∧
      bindingError full.cfg (binding 1 0x400 0 8) = none ∧ bindingError full.cfg (binding 1 0x200 0 8) = none ∧
      (∀ i < full.count .tx, canon full.cfg.idBuild (full.entry .tx i).id ≠ 0x400#32 &&& 0xDFFFFFFF#32) ∧
      full.count .tx = full.cfg.maxMessages ∧
      (∃ i < full.count .tx, canon full.cfg.idBuild (full.entry .tx i).id = 0x200#32 &&& 0xDFFFFFFF#32) ∧
      ∀ j < full.cfg.maxItems, (full.slot j).next ≠ 0xFF#8 := by decide +kernel
theorem witness_AddMakesANewEntry :
    demo.MapInv ∧ demo.saveBusy = false ∧ (binding 1 0x20000400 0 8).param.toNat < demo.cfg.paramLast ∧
      bindingError demo.cfg (binding 1 0x20000400 0 8) = none ∧
      (∀ i < demo.count .rx, canon demo.cfg.idBuild (demo.entry .rx i).id ≠ 0x20000400#32 &&& 0xDFFFFFFF#32) ∧
      demo.count .rx < demo.cfg.maxMessages ∧ 4 < demo.cfg.maxItems ∧ (demo.slot 4).next = 0xFF#8 ∧
      ∀ j < 4, (demo.slot j).next ≠ 0xFF#8 := by decide +kernel
theorem witness_AddAppendsToItsEntry :
    demo.MapInv ∧ demo.saveBusy = false ∧ (binding 1 0x20000200 0 8).param.toNat < demo.cfg.paramLast ∧
      bindingError demo.cfg (binding 1 0x20000200 0 8) = none ∧ 0 < demo.count .tx ∧
      canon demo.cfg.idBuild (demo.entry .tx 0).id = 0x20000200#32 &&& 0xDFFFFFFF#32 ∧
      4 < demo.cfg.maxItems ∧ (demo.slot 4).next = 0xFF#8 ∧ ∀ j < 4, (demo.slot j).next ≠ 0xFF#8 := by decide +kernel
theorem witness_RemoveOfAnUnboundParameter :
    demo.saveBusy = false ∧ ∀ j ∈ demo.mapped, (demo.slot j).param ≠ 15#16 := by decide +kernel
theorem witness_RemoveFreesTheFirstSlot :
    demo.MapInv ∧ demo.saveBusy = false ∧ demo.mapped.find? (fun c => (demo.slot c).param == 3#16) = some 3 := by
  decide +kernel
theorem witness_RemoveUnlinksWithinAList :
    demo.MapInv ∧ demo.mapped.find? (fun c => (demo.slot c).param == 2#16) = some 1 ∧ 0 < demo.count .tx ∧
      1 ∈ demo.slotsOf (demo.entry .tx 0) ∧ 2 ≤ (demo.slotsOf (demo.entry .tx 0)).length := by decide +kernel
theorem witness_RemoveCompactsTheTable :
    demo.MapInv ∧ demo.mapped.find? (fun c => (demo.slot c).param == 6#16) = some 2 ∧ 1 < demo.count .tx ∧
      demo.slotsOf (demo.entry .tx 1) = [2] := by decide +kernel
/-- The emptied entry is not the last one, so the copy happens. -/
theorem witness_RemoveCompactsTheTable_copies :
    full.MapInv ∧ full.mapped.find? (fun c => (full.slot c).param == 6#16) = some 2 ∧ 1 < full.count .tx ∧
      1 ≠ full.count .tx - 1 ∧ full.slotsOf (full.entry .tx 1) = [2] := by decide +kernel
theorem witness_ClearEmptiesTheMap : saving.saveBusy = true ∧ demo.MapInv ∧ demo.saveBusy = false := by decide +kernel
theorem witness_EntryReadback :
    demo.cfg.maxMessages ≤ (4#16).toNat ∧ (3#16).toNat < demo.cfg.maxMessages ∧
      (demo.entry .tx 0).written = true := by decide
theorem witness_SlotReadback :
    demo.cfg.maxItems < (9#16).toNat ∧ (8#16).toNat ≤ demo.cfg.maxItems ∧ (demo.slot 0).written = true := by decide
theorem witness_IndexErrorsWriteOnlyRc :
    demo.cfg.maxMessages ≤ (4#16).toNat ∧ demo.cfg.maxItems < (9#16).toNat ∧ demo.cfg.numPdus ≤ (1#8).toNat := by decide
theorem witness_PackBuildsThePayload :
    demo.cfg.numPdus ≤ (1#8).toNat ∧ demo.cfg.schemas[(0#8).toNat]? = some exampleSchema ∧
      exampleSchema.wf = true := by decide +kernel
theorem witness_CounterLaw :
    demo.cfg.schemas[(0#8).toNat]? = some exampleSchema ∧ exampleSchema.wf = true ∧
      exampleSchema.counter? = some { bpos := 48, width := 4, modulus := 16#32 } ∧
      (0#8).toNat < demo.pdus.length ∧ (demo.pdu (0#8).toNat).txc = 0#32 := by decide +kernel
theorem witness_PackedPayloadsValidate :
    demo.cfg.schemas[(0#8).toNat]? = some exampleSchema ∧ exampleSchema.wf = true ∧ saving.cfg = demo.cfg := by
  decide +kernel
theorem witness_UnpackValidatesAndWrites :
    demo.cfg.numPdus ≤ (1#8).toNat ∧ demo.cfg.schemas[(0#8).toNat]? = some exampleSchema ∧
      exampleSchema.wf = true := by decide +kernel
theorem witness_StatReadback : demo.cfg.numPdus ≤ (1#8).toNat ∧ (0#8).toNat < demo.cfg.numPdus := by decide
theorem witness_CrcDetectsOneBitAndCollides : 63 < 64 ∧ (0x1D#8).getLsbD 0 = true ∧ 6 < 7 := by decide

end Sys2Proof.Tests
end

section
/-! The effect of every command, said once: a command that mutates the map raises a protocol fault or edits the map and
reports; any other command leaves the map and the fault state (spec/20_memory.md R64; spec/60_exceptions.md R252). -/

namespace Sys2Proof.Machine

/-! ## What an edit of the map leaves unchanged -/

/-- `t` is `s` up to the two tables and the pool: the complement of `sameMap`. -/
def State.SameOutsideMap (s t : State) : Prop := t = { s with txm := t.txm, rxm := t.rxm, pool := t.pool }

theorem State.SameOutsideMap.trans {s t u : State} (hst : s.SameOutsideMap t) (htu : t.SameOutsideMap u) :
    s.SameOutsideMap u := by
  unfold State.SameOutsideMap at hst htu ⊢
  rw [hst] at htu
  exact htu

theorem State.SameOutsideMap.refl (s : State) : s.SameOutsideMap s := rfl

theorem State.sameOutsideMap_setPool (s : State) (l : List Slot) : s.SameOutsideMap (s.setPool l) := rfl

theorem State.sameOutsideMap_setTable (s : State) (t : Table) (l : List IdEntry) :
    s.SameOutsideMap (s.setTable t l) := by
  cases t <;> rfl

theorem State.sameOutsideMap_link (s : State) (t : Table) (b : Binding) (i : Option Nat) (j : Nat) :
    s.SameOutsideMap (s.link t b i j) := by
  have hcell := s.sameOutsideMap_setPool (s.pool.set j (bindingSlot b s.endLink))
  unfold State.link
  cases i with
  | none => exact hcell.trans (State.sameOutsideMap_setTable _ _ _)
  | some i =>
    dsimp only
    split
    · exact hcell
    · exact hcell.trans (State.sameOutsideMap_setPool _ _)

theorem State.sameOutsideMap_unlink (s : State) (pl : SlotPlace) : s.SameOutsideMap (s.unlink pl) := by
  unfold State.unlink
  cases pl.prev with
  | none => exact (s.sameOutsideMap_setTable _ _).trans (State.sameOutsideMap_setPool _ _)
  | some q => exact (s.sameOutsideMap_setPool _).trans (State.sameOutsideMap_setPool _ _)

theorem State.sameOutsideMap_removeSlot (s : State) (pl : SlotPlace) : s.SameOutsideMap (s.removeSlot pl) := by
  unfold State.removeSlot
  dsimp only
  split
  · exact (s.sameOutsideMap_unlink pl).trans (State.sameOutsideMap_setTable _ _ _)
  · exact s.sameOutsideMap_unlink pl

theorem State.sameOutsideMap_clearMap (s : State) : s.SameOutsideMap s.clearMap := rfl

/-- An insertion that succeeds finds no save in progress and edits the map alone. -/
theorem State.add_eq_done {s u : State} {t : Table} {b : Binding} (h : s.add t b = .done u) :
    s.saveBusy = false ∧ s.SameOutsideMap u := by
  rcases s.add_cases t b with ⟨-, ha⟩ | ⟨-, -, ha⟩ | ⟨hb, -, ⟨_, -, ha⟩ | ⟨-, ⟨-, -, ha⟩ | ⟨-, ⟨-, ha⟩ | ⟨j, -, ha⟩⟩⟩⟩ <;>
    cases h.symm.trans ha
  exact ⟨hb, s.sameOutsideMap_link _ _ _ _⟩

theorem State.add_of_saveBusy {s : State} {t : Table} {b : Binding} (hb : s.saveBusy = true) :
    s.add t b = .fault .mutateWhileSaving :=
  if_pos hb

theorem State.add_eq_error {s : State} {t : Table} {b : Binding} {code : Word} (h : s.add t b = .error code) :
    s.saveBusy = false := by
  cases hb : s.saveBusy with
  | false => rfl
  | true => cases h.symm.trans (State.add_of_saveBusy hb)

/-! ## The binding commands by the answer of `add` -/

@[simp] theorem State.emit_nil (s : State) : s.emit [] = s := by simp [State.emit]

theorem exec_addCmd_of_fault {s : State} {t : Table} {b : Binding} {r : PfReason} (h : s.add t b = .fault r) :
    exec (addCmd t b) s = .next (s.raise r) := by
  cases t <;> simp [addCmd, exec, execMapAddtx, execMapAddrx, h]

theorem exec_addCmd_of_error {s : State} {t : Table} {b : Binding} {code : Word} (h : s.add t b = .error code) :
    exec (addCmd t b) s = .next (s.setRc code) := by
  cases t <;> simp [addCmd, exec, execMapAddtx, execMapAddrx, h]

theorem exec_addCmd_of_done {s u : State} {t : Table} {b : Binding} (h : s.add t b = .done u) :
    exec (addCmd t b) s = .next ((u.setRc (BitVec.ofNat 32 (u.count t))).emit (addEvents t b)) := by
  cases t <;> simp [addCmd, exec, execMapAddtx, execMapAddrx, addEvents, h]

/-! ## Commands that mutate the map -/

/-- `t` is `s` with a protocol fault raised, or, while no save is in progress, with an edited map, a return code and
some events emitted. -/
def State.RaisesOrEdits (s t : State) : Prop :=
  (∃ r, t = s.raise r) ∨ s.saveBusy = false ∧ ∃ u v es, s.SameOutsideMap u ∧ t = (u.setRc v).emit es

theorem State.raisesOrEdits_raise (s : State) (r : PfReason) : s.RaisesOrEdits (s.raise r) := .inl ⟨r, rfl⟩

theorem State.raisesOrEdits_setRc {s u : State} (hb : s.saveBusy = false) (hu : s.SameOutsideMap u) (v : Word) :
    s.RaisesOrEdits (u.setRc v) :=
  .inr ⟨hb, u, v, [], hu, (State.emit_nil _).symm⟩

theorem exec_addCmd_cases {s u : State} {t : Table} {b : Binding} (h : exec (addCmd t b) s = .next u) :
    s.RaisesOrEdits u := by
  cases ha : s.add t b with
  | fault r =>
    cases (exec_addCmd_of_fault ha).symm.trans h
    exact s.raisesOrEdits_raise r
  | error code =>
    cases (exec_addCmd_of_error ha).symm.trans h
    exact State.raisesOrEdits_setRc (State.add_eq_error ha) (.refl s) code
  | done w =>
    cases (exec_addCmd_of_done ha).symm.trans h
    obtain ⟨hb, hw⟩ := State.add_eq_done ha
    exact .inr ⟨hb, w, _, _, hw, rfl⟩

theorem execMapRm_cases {s t : State} {param : BitVec 16} (h : execMapRm param s = .next t) : s.RaisesOrEdits t := by
  unfold execMapRm at h
  split at h
  · cases h
    exact s.raisesOrEdits_raise _
  · next hb =>
    have hb : s.saveBusy = false := Bool.eq_false_of_not_eq_true hb
    split at h <;> cases h
    · exact State.raisesOrEdits_setRc hb (.refl s) _
    · exact State.raisesOrEdits_setRc hb (s.sameOutsideMap_removeSlot _) _

theorem execMapClr_cases {s t : State} (h : execMapClr s = .next t) : s.RaisesOrEdits t := by
  unfold execMapClr at h
  split at h <;> cases h
  · exact s.raisesOrEdits_raise _
  · next hb => exact State.raisesOrEdits_setRc (Bool.eq_false_of_not_eq_true hb) s.sameOutsideMap_clearMap _

/-- R252: what MAP.ADDRX, MAP.ADDTX, MAP.RM and MAP.CLR can do. -/
theorem exec_mutation {i : Instr} {s t : State} (hm : Mutates i = true) (h : exec i s = .next t) :
    s.RaisesOrEdits t := by
  cases i with
  | mapAddrx b => exact exec_addCmd_cases (t := .rx) h
  | mapAddtx b => exact exec_addCmd_cases (t := .tx) h
  | mapRm param => exact execMapRm_cases h
  | mapClr => exact execMapClr_cases h
  | _ => cases hm

/-! ## Commands that leave the map -/

/-- `t` is `s` up to the result registers, the PDU state and what the oracles hold, with some events emitted. -/
def State.ReportsOnly (s t : State) : Prop :=
  t = { s with
      rc := t.rc
      rv := t.rv
      rf := t.rf
      rp := t.rp
      ok := t.ok
      pdus := t.pdus
      events := t.events
      paramAnswers := t.paramAnswers
      varAnswers := t.varAnswers
      draws := t.draws } ∧
    s.events <+: t.events

theorem State.reportsOnly_setRc (s : State) (v : Word) : s.ReportsOnly (s.setRc v) := ⟨rfl, List.prefix_rfl⟩

/-- R64: what the fourteen other commands can do. -/
theorem exec_report {i : Instr} {s t : State} (hm : Mutates i = false) (h : exec i s = .next t) :
    s.ReportsOnly t := by
  cases i with
  | fxGet | fxOr | fxIns | fxDec | fxEnc | crc8Calc =>
    cases h
    exact ⟨rfl, List.prefix_rfl⟩
  | mapRereg =>
    cases h
    exact ⟨rfl, List.prefix_append _ _⟩
  | mapRde | mapRds | pduPack | pduStat =>
    simp only [exec, execMapRde, execMapRds, execPduPack, execPduStat] at h
    split at h <;> cases h
    · exact s.reportsOnly_setRc _
    · exact ⟨rfl, List.prefix_rfl⟩
  | frameTxall | pduUnpack =>
    simp only [exec, execFrameTxall, execPduUnpack] at h
    split at h <;> cases h
    · exact s.reportsOnly_setRc _
    · exact ⟨rfl, List.prefix_append _ _⟩
  | frameRx =>
    simp only [exec, execFrameRx] at h
    split at h
    · cases h
      exact s.reportsOnly_setRc _
    · split at h <;> cases h
      · exact s.reportsOnly_setRc _
      · exact ⟨rfl, List.prefix_append _ _⟩
  | mapAddrx | mapAddtx | mapRm | mapClr => cases hm

/-! ## The environment -/

/-- `t` has the configuration, the level of `save_busy` and the pending inputs of `s`, and an output history that extends
that of `s`. -/
def State.KeepsEnvironment (s t : State) : Prop :=
  t.cfg = s.cfg ∧ t.saveBusy = s.saveBusy ∧ t.inputs = s.inputs ∧ s.events <+: t.events

theorem State.RaisesOrEdits.keepsEnvironment {s t : State} (h : s.RaisesOrEdits t) : s.KeepsEnvironment t := by
  obtain ⟨r, rfl⟩ | ⟨-, u, v, es, hu, rfl⟩ := h
  · exact ⟨rfl, rfl, rfl, List.prefix_rfl⟩
  · rw [hu]
    exact ⟨rfl, rfl, rfl, List.prefix_append _ _⟩

theorem State.ReportsOnly.keepsEnvironment {s t : State} (h : s.ReportsOnly t) : s.KeepsEnvironment t := by
  obtain ⟨ht, hev⟩ := h
  refine ⟨?_, ?_, ?_, hev⟩ <;> rw [ht]

/-- Settles O14, by the two things a command can do: edit the map or report. -/
theorem commandsKeepTheEnvironment : Obligations.CommandsKeepTheEnvironment := by
  intro i s t h
  cases hm : Mutates i with
  | true => exact (exec_mutation hm h).keepsEnvironment
  | false => exact (exec_report hm h).keepsEnvironment

end Sys2Proof.Machine
end

section
/-! The lists of the signal map (spec/10_state.md R30, R31): a list is the path its links lead along, a table is a front
of live entries followed by empty ones, and R31 is said of the live entries and the cells in their lists, in any order. -/

namespace Sys2Proof.Machine

/-! ## Paths -/

/-- From `j` the links lead along the cells `js` to `k`. -/
def State.Path (s : State) : Nat → List Nat → Nat → Prop
  | j, [], k => j = k
  | j, c :: cs, k => j = c ∧ c < s.cfg.maxItems ∧ s.Path (s.slot c).next.toNat cs k

theorem State.path_append {s : State} {xs ys : List Nat} {j k : Nat} :
    s.Path j (xs ++ ys) k ↔ ∃ m, s.Path j xs m ∧ s.Path m ys k := by
  induction xs generalizing j with
  | nil => simp [State.Path]
  | cons x xs ih => simp [State.Path, ih, and_assoc]

theorem State.Path.lt {s : State} {js : List Nat} {j k : Nat} (h : s.Path j js k) :
    ∀ c ∈ js, c < s.cfg.maxItems := by
  induction js generalizing j with
  | nil => simp
  | cons x xs ih =>
    obtain ⟨-, hx, hp⟩ := h
    exact List.forall_mem_cons.mpr ⟨hx, ih hp⟩

theorem State.Path.congr {s u : State} {js : List Nat} {j k : Nat} (hc : u.cfg = s.cfg)
    (hl : ∀ c ∈ js, (u.slot c).next = (s.slot c).next) (h : s.Path j js k) : u.Path j js k := by
  induction js generalizing j with
  | nil => exact h
  | cons x xs ih =>
    obtain ⟨hj, hx, hp⟩ := h
    obtain ⟨hlx, hlxs⟩ := List.forall_mem_cons.mp hl
    exact ⟨hj, hc ▸ hx, hlx ▸ ih hlxs hp⟩

/-- A path ends at the link of its last cell. -/
theorem State.Path.end_eq {s : State} {js : List Nat} {j k : Nat} (h : s.Path j js k) :
    k = (js.getLast?.map fun c => (s.slot c).next.toNat).getD j := by
  induction js generalizing j with
  | nil => exact h.symm
  | cons x xs ih =>
    obtain ⟨-, -, hp⟩ := h
    rw [ih hp]
    cases hl : xs.getLast? <;> simp [List.getLast?_cons, hl]

theorem State.exists_path_walk (s : State) (fuel j : Nat) : ∃ k, s.Path j (s.walk fuel j) k := by
  induction fuel generalizing j with
  | zero => exact ⟨j, rfl⟩
  | succ n ih =>
    unfold State.walk
    split
    · next hj =>
      obtain ⟨k, hk⟩ := ih (s.slot j).next.toNat
      exact ⟨k, rfl, hj, hk⟩
    · exact ⟨j, rfl⟩

/-- Walking from the start of a path that ends at `MAX_ITEMS` gives the path's cells. -/
theorem State.Path.walk_eq {s : State} {js : List Nat} {j fuel : Nat} (h : s.Path j js s.cfg.maxItems)
    (hf : js.length ≤ fuel) : s.walk fuel j = js := by
  induction js generalizing j fuel with
  | nil =>
    obtain rfl : j = s.cfg.maxItems := h
    cases fuel <;> simp [State.walk]
  | cons x xs ih =>
    obtain ⟨rfl, hx, hp⟩ := h
    cases fuel with
    | zero => simp at hf
    | succ n =>
      unfold State.walk
      rw [if_pos hx, ih hp (by simpa using hf)]

theorem State.lastLink_eq (s : State) (e : IdEntry) :
    s.lastLink e = ((s.slotsOf e).getLast?.map fun c => (s.slot c).next.toNat).getD e.first.toNat := by
  unfold State.lastLink
  cases (s.slotsOf e).getLast? <;> rfl

/-- An entry's list is a path from its first cell to its last link. -/
theorem State.path_slotsOf (s : State) (e : IdEntry) : s.Path e.first.toNat (s.slotsOf e) (s.lastLink e) := by
  obtain ⟨k, hk⟩ : ∃ k, s.Path e.first.toNat (s.slotsOf e) k := s.exists_path_walk _ _
  rw [s.lastLink_eq, ← hk.end_eq]
  exact hk

/-- A path without repetition from an entry's first cell to `MAX_ITEMS` is the entry's list. -/
theorem State.Path.slotsOf_eq {s : State} {e : IdEntry} {js : List Nat}
    (h : s.Path e.first.toNat js s.cfg.maxItems) (hn : js.Nodup) : s.slotsOf e = js := by
  refine h.walk_eq ?_
  have hsub : js ⊆ List.range s.cfg.maxItems := fun c hc => List.mem_range.mpr (h.lt c hc)
  simpa using (hn.subperm hsub).length_le

theorem State.Path.lastLink_eq {s : State} {e : IdEntry} {js : List Nat}
    (h : s.Path e.first.toNat js s.cfg.maxItems) (hn : js.Nodup) : s.lastLink e = s.cfg.maxItems := by
  rw [s.lastLink_eq, h.slotsOf_eq hn]
  exact h.end_eq.symm

theorem State.slotsOf_lt {s : State} {e : IdEntry} {c : Nat} (h : c ∈ s.slotsOf e) : c < s.cfg.maxItems :=
  s.walk_mem_lt h

theorem State.slotsOf_of_keeps_links {s u : State} {e : IdEntry} (hc : u.cfg = s.cfg)
    (hl : ∀ c ∈ s.slotsOf e, (u.slot c).next = (s.slot c).next) : u.slotsOf e = s.slotsOf e := by
  unfold State.slotsOf
  rw [hc]
  exact State.walk_congr (by rw [hc]) hl

theorem State.lastLink_of_keeps_links {s u : State} {e : IdEntry} (hc : u.cfg = s.cfg)
    (hl : ∀ c ∈ s.slotsOf e, (u.slot c).next = (s.slot c).next) : u.lastLink e = s.lastLink e := by
  rw [((s.path_slotsOf e).congr hc hl).end_eq, u.lastLink_eq, State.slotsOf_of_keeps_links hc hl]

/-- An entry whose list ends is empty exactly when its list is. -/
theorem State.isEmpty_iff_slotsOf_eq_nil {s : State} {e : IdEntry} (h : s.lastLink e = s.cfg.maxItems) :
    s.isEmpty e = true ↔ s.slotsOf e = [] := by
  have hp := h ▸ s.path_slotsOf e
  unfold State.isEmpty
  cases hjs : s.slotsOf e with
  | nil =>
    rw [hjs] at hp
    have hfirst : e.first.toNat = s.cfg.maxItems := hp
    simp [hfirst]
  | cons c cs =>
    rw [hjs] at hp
    obtain ⟨hc, hlt, -⟩ := hp
    have hne : e.first.toNat ≠ s.cfg.maxItems := by omega
    simp [hne]

/-! ## Tables -/

@[simp] theorem otherTable_otherTable (t : Table) : otherTable (otherTable t) = t := by cases t <;> rfl

theorem otherTable_ne (t : Table) : otherTable t ≠ t := by cases t <;> decide

/-- Table `t` begins with the entries `a`, none of them empty, and every later entry is empty. -/
def State.Front (s : State) (t : Table) (a : List IdEntry) : Prop :=
  ∃ b, s.table t = a ++ b ∧ (∀ e ∈ a, s.isEmpty e = false) ∧ ∀ e ∈ b, s.isEmpty e = true

theorem State.Front.count_eq {s : State} {t : Table} {a : List IdEntry} (h : s.Front t a) :
    s.count t = a.length := by
  obtain ⟨b, htab, ha, hb⟩ := h
  have h1 : a.countP (fun e => !s.isEmpty e) = a.length := List.countP_eq_length.mpr (by simpa using ha)
  have h2 : b.countP (fun e => !s.isEmpty e) = 0 := List.countP_eq_zero.mpr (by simpa using hb)
  unfold State.count
  rw [htab, List.countP_append, h1, h2, Nat.add_zero]

theorem State.Front.live_eq {s : State} {t : Table} {a : List IdEntry} (h : s.Front t a) : s.live t = a := by
  unfold State.live
  rw [h.count_eq]
  obtain ⟨b, htab, -, -⟩ := h
  rw [htab, List.take_left]

theorem State.entry_eq_getElem {s : State} {t : Table} {i : Nat} (h : i < (s.table t).length) :
    s.entry t i = (s.table t)[i] := by
  unfold State.entry
  rw [List.getElem?_eq_getElem h]
  rfl

theorem State.Front.dense {s : State} {t : Table} {a : List IdEntry} (h : s.Front t a)
    (hlen : (s.table t).length = s.cfg.maxMessages) : s.dense t := by
  intro i hi
  rw [State.entry_eq_getElem (hlen ▸ hi), h.count_eq]
  obtain ⟨b, htab, ha, hb⟩ := h
  have hi' : i < (a ++ b).length := by rw [← htab, hlen]; exact hi
  simp only [htab]
  by_cases hia : i < a.length
  · rw [List.getElem_append_left hia, ha _ (List.getElem_mem hia)]
    exact (decide_eq_false (by omega)).symm
  · rw [List.getElem_append_right (by omega), hb _ (List.getElem_mem _)]
    exact (decide_eq_true (by omega)).symm

theorem State.front_of_dense {s : State} {t : Table} (h : s.dense t)
    (hlen : (s.table t).length = s.cfg.maxMessages) : s.Front t (s.live t) := by
  refine ⟨(s.table t).drop (s.count t), (List.take_append_drop _ _).symm, fun e he => ?_, fun e he => ?_⟩
  · obtain ⟨i, hi, rfl⟩ := State.mem_live.mp he
    rw [h i (by have := s.count_le t; omega)]
    exact decide_eq_false (by omega)
  · obtain ⟨i, hi, rfl⟩ := List.mem_iff_getElem.mp he
    rw [List.length_drop] at hi
    rw [List.getElem_drop, ← State.entry_eq_getElem, h _ (by omega)]
    exact decide_eq_true (by omega)

theorem State.Front.congr {s u : State} {t : Table} {a : List IdEntry} (hc : u.cfg = s.cfg)
    (ht : u.table t = s.table t) (h : s.Front t a) : u.Front t a := by
  unfold State.Front State.isEmpty
  rw [ht, hc]
  exact h

/-! ## R31 of the live entries and of the cells in their lists -/

/-- R29 and R31(b), (g), of some entries of a table. -/
structure State.EntriesOk (s : State) (l : List IdEntry) : Prop where
  ends : ∀ e ∈ l, s.lastLink e = s.cfg.maxItems
  distinct : (l.map fun e => canon s.cfg.idBuild e.id).Nodup
  ids : ∀ e ∈ l, (canon s.cfg.idBuild e.id).toNat ≤ maxNum s.cfg.idBuild ∧ e.written = true

/-- R31(h) of one cell. -/
def State.SlotOk (s : State) (j : Nat) : Prop :=
  fieldFits (s.slot j).field ∧ (s.slot j).param.toNat < s.cfg.paramLast ∧ (s.slot j).written = true

/-- R31(b) to (e), (h), of the cells in the lists. -/
structure State.CellsOk (s : State) (m : List Nat) : Prop where
  nodup : m.Nodup
  mem_iff : ∀ j < s.cfg.maxItems, j ∈ m ↔ (s.slot j).next ≠ itemUnset
  slots : ∀ j ∈ m, s.SlotOk j

/-- R31 of the live entries `a` and `o` of the two tables, apart from the tables' density. -/
structure State.Lists (s : State) (a o : List IdEntry) : Prop where
  entries : s.EntriesOk a
  others : s.EntriesOk o
  cells : s.CellsOk ((a ++ o).flatMap s.slotsOf)

theorem State.EntriesOk.perm {s : State} {l l' : List IdEntry} (hp : l.Perm l') (h : s.EntriesOk l) :
    s.EntriesOk l' where
  ends e he := h.ends e (hp.mem_iff.mpr he)
  distinct := (hp.map _).nodup_iff.mp h.distinct
  ids e he := h.ids e (hp.mem_iff.mpr he)

theorem State.CellsOk.perm {s : State} {m m' : List Nat} (hp : m.Perm m') (h : s.CellsOk m) : s.CellsOk m' where
  nodup := hp.nodup_iff.mp h.nodup
  mem_iff j hj := hp.mem_iff.symm.trans (h.mem_iff j hj)
  slots j hj := h.slots j (hp.mem_iff.mpr hj)

theorem State.Lists.perm {s : State} {a a' o : List IdEntry} (hp : a.Perm a') (h : s.Lists a o) : s.Lists a' o where
  entries := h.entries.perm hp
  others := h.others
  cells := h.cells.perm ((hp.append_right o).flatMap_right _)

theorem State.Lists.swap {s : State} {a o : List IdEntry} (h : s.Lists a o) : s.Lists o a where
  entries := h.others
  others := h.entries
  cells := h.cells.perm (List.perm_append_comm.flatMap_right _)

theorem State.EntriesOk.tail {s : State} {e : IdEntry} {l : List IdEntry} (h : s.EntriesOk (e :: l)) :
    s.EntriesOk l where
  ends e' he' := h.ends e' (List.mem_cons_of_mem e he')
  distinct := (List.nodup_cons.mp h.distinct).2
  ids e' he' := h.ids e' (List.mem_cons_of_mem e he')

theorem State.Lists.path_head {s : State} {e : IdEntry} {a o : List IdEntry} (h : s.Lists (e :: a) o) :
    s.Path e.first.toNat (s.slotsOf e) s.cfg.maxItems :=
  h.entries.ends e List.mem_cons_self ▸ s.path_slotsOf e

/-- An entry with an empty list can be dropped. -/
theorem State.Lists.drop_empty {s : State} {e : IdEntry} {a o : List IdEntry} (h : s.Lists (e :: a) o)
    (he : s.slotsOf e = []) : s.Lists a o where
  entries := h.entries.tail
  others := h.others
  cells := by simpa [he] using h.cells

theorem State.EntriesOk.congr {s u : State} {l : List IdEntry} (hc : u.cfg = s.cfg)
    (hl : ∀ e ∈ l, ∀ c ∈ s.slotsOf e, (u.slot c).next = (s.slot c).next) (h : s.EntriesOk l) : u.EntriesOk l where
  ends e he := by rw [State.lastLink_of_keeps_links hc (hl e he), h.ends e he, hc]
  distinct := by rw [hc]; exact h.distinct
  ids := by rw [hc]; exact h.ids

theorem State.slot_of_pool_eq {s u : State} (hp : u.pool = s.pool) (j : Nat) : u.slot j = s.slot j := by
  unfold State.slot
  rw [hp]

theorem State.CellsOk.congr {s u : State} {m : List Nat} (hc : u.cfg = s.cfg) (hp : u.pool = s.pool)
    (h : s.CellsOk m) : u.CellsOk m where
  nodup := h.nodup
  mem_iff j hj := by rw [State.slot_of_pool_eq hp]; exact h.mem_iff j (hc ▸ hj)
  slots j hj := by unfold State.SlotOk; rw [State.slot_of_pool_eq hp, hc]; exact h.slots j hj

theorem State.flatMap_slotsOf_congr {s u : State} {l : List IdEntry} (hc : u.cfg = s.cfg)
    (hl : ∀ e ∈ l, ∀ c ∈ s.slotsOf e, (u.slot c).next = (s.slot c).next) :
    l.flatMap u.slotsOf = l.flatMap s.slotsOf :=
  List.flatMap_congr fun e he => State.slotsOf_of_keeps_links hc (hl e he)

theorem State.Lists.congr {s u : State} {a o : List IdEntry} (hc : u.cfg = s.cfg) (hp : u.pool = s.pool)
    (h : s.Lists a o) : u.Lists a o := by
  have hl : ∀ l : List IdEntry, ∀ e ∈ l, ∀ c ∈ s.slotsOf e, (u.slot c).next = (s.slot c).next :=
    fun _ _ _ c _ => by rw [State.slot_of_pool_eq hp]
  refine ⟨h.entries.congr hc (hl a), h.others.congr hc (hl o), ?_⟩
  rw [State.flatMap_slotsOf_congr hc (hl _)]
  exact h.cells.congr hc hp

/-! ## The map invariants, seen from one table -/

/-- R31 seen from table `t`, whose live entries are `a`; those of the other table are `o`. -/
structure State.MapOn (s : State) (t : Table) (a o : List IdEntry) : Prop where
  wf : s.cfg.wf = true
  shape : s.shapeOk
  sentinel : s.sentinelOk
  front : s.Front t a
  otherFront : s.Front (otherTable t) o
  lists : s.Lists a o

theorem State.MapOn.swap {s : State} {t : Table} {a o : List IdEntry} (h : s.MapOn t a o) :
    s.MapOn (otherTable t) o a where
  wf := h.wf
  shape := h.shape
  sentinel := h.sentinel
  front := h.otherFront
  otherFront := by simpa using h.front
  lists := h.lists.swap

theorem State.MapOn.pool_length {s : State} {t : Table} {a o : List IdEntry} (h : s.MapOn t a o) :
    s.pool.length = s.cfg.maxItems + 1 := by
  obtain ⟨-, -, hp, -⟩ := h.shape
  exact hp

theorem State.shapeOk.table_length {s : State} (h : s.shapeOk) (t : Table) :
    (s.table t).length = s.cfg.maxMessages := by
  obtain ⟨htx, hrx, -, -⟩ := h
  cases t
  · exact htx
  · exact hrx

theorem State.mapOn_tx_of_mapInv {s : State} (h : s.MapInv) : s.MapOn .tx (s.live .tx) (s.live .rx) := by
  obtain ⟨hwf, hshape, hsen, hdt, hdr, het, her, hsharing, hlive, hdisT, hdisR, hidT, hidR, hslots⟩ := h
  refine ⟨hwf, hshape, hsen, State.front_of_dense hdt (hshape.table_length _),
    State.front_of_dense hdr (hshape.table_length _), ⟨het, hdisT, hidT⟩, ⟨her, hdisR, hidR⟩, hsharing, ?_, hslots⟩
  exact fun j hj => decide_eq_decide.mp (hlive j hj)

theorem State.mapInv_of_mapOn_tx {s : State} {a o : List IdEntry} (h : s.MapOn .tx a o) : s.MapInv := by
  obtain ⟨hwf, hshape, hsen, hfa, hfo, ⟨het, hdisT, hidT⟩, ⟨her, hdisR, hidR⟩, hsharing, hlive, hslots⟩ := h
  have hdt := hfa.dense (hshape.table_length _)
  have hdr := hfo.dense (hshape.table_length _)
  obtain rfl := hfa.live_eq
  obtain rfl := hfo.live_eq
  exact ⟨hwf, hshape, hsen, hdt, hdr, het, her, hsharing, fun j hj => decide_eq_decide.mpr (hlive j hj), hdisT, hdisR,
    hidT, hidR, hslots⟩

theorem State.mapOn_of_mapInv {s : State} (h : s.MapInv) (t : Table) :
    s.MapOn t (s.live t) (s.live (otherTable t)) := by
  cases t with
  | tx => exact State.mapOn_tx_of_mapInv h
  | rx => exact (State.mapOn_tx_of_mapInv h).swap

theorem State.MapOn.mapInv {s : State} {t : Table} {a o : List IdEntry} (h : s.MapOn t a o) : s.MapInv := by
  cases t with
  | tx => exact State.mapInv_of_mapOn_tx h
  | rx => exact State.mapInv_of_mapOn_tx h.swap

end Sys2Proof.Machine
end

section
/-! One cell taken or freed, one entry's list replaced, and the words that hold indices and ids
(spec/10_state.md R27 to R31; spec/41_frame.md R140). -/

namespace Sys2Proof.Machine

/-! ## Cells taken and freed -/

/-- Cell `c` of `u` is that of `s` up to its link, and is free in both or in neither. -/
def State.Relinks (s u : State) (c : Nat) : Prop :=
  u.slot c = { s.slot c with next := (u.slot c).next } ∧
    ((u.slot c).next = itemUnset ↔ (s.slot c).next = itemUnset)

theorem State.relinks_of_eq {s u : State} {c : Nat} (h : u.slot c = s.slot c) : s.Relinks u c := by
  unfold State.Relinks
  rw [h]
  exact ⟨rfl, Iff.rfl⟩

theorem State.SlotOk.relink {s u : State} {c : Nat} (hc : u.cfg = s.cfg) (hr : s.Relinks u c) (h : s.SlotOk c) :
    u.SlotOk c := by
  unfold State.SlotOk
  rw [hr.1, hc]
  exact h

/-- A free cell is taken. -/
theorem State.CellsOk.insert {s u : State} {m : List Nat} {j : Nat} (h : s.CellsOk m) (hc : u.cfg = s.cfg)
    (hj : j < s.cfg.maxItems) (hfree : (s.slot j).next = itemUnset) (htaken : (u.slot j).next ≠ itemUnset)
    (hok : u.SlotOk j) (hr : ∀ c, c ≠ j → s.Relinks u c) : u.CellsOk (j :: m) where
  nodup := List.nodup_cons.mpr ⟨fun hm => (h.mem_iff j hj).mp hm hfree, h.nodup⟩
  mem_iff c hlt := by
    by_cases hcj : c = j
    · simp [hcj, htaken]
    · rw [List.mem_cons, or_iff_right hcj, h.mem_iff c (hc ▸ hlt)]
      exact not_congr (hr c hcj).2.symm
  slots c hm := by
    by_cases hcj : c = j
    · exact hcj ▸ hok
    · exact (h.slots c (List.mem_of_ne_of_mem hcj hm)).relink hc (hr c hcj)

/-- A cell is freed. -/
theorem State.CellsOk.free {s u : State} {m : List Nat} {j : Nat} (h : s.CellsOk (j :: m)) (hc : u.cfg = s.cfg)
    (hfree : (u.slot j).next = itemUnset) (hr : ∀ c, c ≠ j → s.Relinks u c) : u.CellsOk m := by
  obtain ⟨hjm, hm⟩ := List.nodup_cons.mp h.nodup
  refine ⟨hm, fun c hlt => ?_, fun c hcm => ?_⟩
  · by_cases hcj : c = j
    · simp [hcj, hjm, hfree]
    · rw [← or_iff_right (b := c ∈ m) hcj, ← List.mem_cons, h.mem_iff c (hc ▸ hlt)]
      exact not_congr (hr c hcj).2.symm
  · have hcj : c ≠ j := fun hcj => hjm (hcj ▸ hcm)
    exact (h.slots c (List.mem_cons_of_mem j hcm)).relink hc (hr c hcj)

/-! ## One entry's list replaced -/

theorem State.lists_cons {s u : State} {e : IdEntry} {r o : List IdEntry} {js : List Nat} (hr : s.EntriesOk r)
    (ho : s.EntriesOk o) (hc : u.cfg = s.cfg)
    (hl : ∀ c ∈ (r ++ o).flatMap s.slotsOf, (u.slot c).next = (s.slot c).next)
    (hfresh : ∀ e' ∈ r, canon s.cfg.idBuild e'.id ≠ canon s.cfg.idBuild e.id)
    (hid : (canon s.cfg.idBuild e.id).toNat ≤ maxNum s.cfg.idBuild ∧ e.written = true)
    (hp : u.Path e.first.toNat js u.cfg.maxItems) (hcells : u.CellsOk (js ++ (r ++ o).flatMap s.slotsOf)) :
    u.Lists (e :: r) o := by
  have hl' : ∀ e' ∈ r ++ o, ∀ c ∈ s.slotsOf e', (u.slot c).next = (s.slot c).next :=
    fun e' he' c hce => hl c (List.mem_flatMap.mpr ⟨e', he', hce⟩)
  have hjs : js.Nodup := (List.nodup_append.mp hcells.nodup).1
  have hr' : u.EntriesOk r := hr.congr hc fun e' he' => hl' e' (List.mem_append_left o he')
  refine ⟨⟨?_, ?_, ?_⟩, ho.congr hc fun e' he' => hl' e' (List.mem_append_right r he'), ?_⟩
  · exact List.forall_mem_cons.mpr ⟨hp.lastLink_eq hjs, hr'.ends⟩
  · rw [List.map_cons, List.nodup_cons, hc]
    refine ⟨?_, hr.distinct⟩
    simpa using hfresh
  · rw [List.forall_mem_cons, hc]
    exact ⟨hid, hr.ids⟩
  · rw [List.cons_append, List.flatMap_cons, hp.slotsOf_eq hjs, State.flatMap_slotsOf_congr hc hl']
    exact hcells

theorem State.lists_replace {s u : State} {e e' : IdEntry} {r o : List IdEntry} {js : List Nat}
    (h : s.Lists (e :: r) o) (hc : u.cfg = s.cfg) (hid : e'.id = e.id) (hw : e'.written = e.written)
    (hl : ∀ c ∈ (r ++ o).flatMap s.slotsOf, (u.slot c).next = (s.slot c).next)
    (hp : u.Path e'.first.toNat js u.cfg.maxItems) (hcells : u.CellsOk (js ++ (r ++ o).flatMap s.slotsOf)) :
    u.Lists (e' :: r) o := by
  obtain ⟨hfresh, -⟩ := List.nodup_cons.mp h.entries.distinct
  refine State.lists_cons h.entries.tail h.others hc hl (fun e2 he2 heq => hfresh ?_) ?_ hp hcells
  · exact List.mem_map.mpr ⟨e2, he2, by rw [heq, hid]⟩
  · rw [hid, hw]
    exact h.entries.ids e List.mem_cons_self

/-! ## Words -/

theorem Params.wf_iff {c : Params} : c.wf = true ↔
    1 ≤ c.maxMessages ∧ c.maxMessages ≤ 65535 ∧ 1 ≤ c.maxItems ∧ c.maxItems ≤ 254 ∧ 1 ≤ c.paramLast ∧
      c.paramLast ≤ 65536 ∧ c.numPdus ≤ 256 ∧ ∀ sc ∈ c.schemas, sc.wf = true := by
  simp [Params.wf, and_assoc]

theorem Params.maxItems_le {c : Params} (h : c.wf = true) : c.maxItems ≤ 254 := by
  obtain ⟨-, -, -, hle, -⟩ := Params.wf_iff.mp h
  exact hle

theorem toNat_ofNat_byte {n : Nat} (h : n ≤ 254) : (BitVec.ofNat 8 n).toNat = n :=
  BitVec.toNat_ofNat n 8 ▸ Nat.mod_eq_of_lt (by omega)

theorem toNat_ofNat_first {n : Nat} (h : n ≤ 254) : (BitVec.ofNat 16 n).toNat = n :=
  BitVec.toNat_ofNat n 16 ▸ Nat.mod_eq_of_lt (by omega)

/-- A link that holds an index is not `ITEM_UNSET`. -/
theorem ne_itemUnset_of_toNat_le {b : Byte} (h : b.toNat ≤ 254) : b ≠ itemUnset := by
  rintro rfl
  exact absurd h (by decide)

theorem maxNum_lt (b : IdBuild) : maxNum b < 2 ^ forceBit b := by cases b <;> decide

theorem getLsbD_forceMask (b : IdBuild) (i : Nat) : (forceMask b).getLsbD i = decide (i = forceBit b) := by
  have hlt : forceBit b < 32 := by cases b <;> decide
  unfold forceMask
  rw [BitVec.getLsbD_ofNat, Nat.testBit_two_pow, Bool.eq_iff_iff]
  simp only [Bool.and_eq_true, decide_eq_true_eq]
  omega

/-- The stored form of a numeric id of the build, without its force flag, is the id (R29, R140). -/
theorem canon_storedId {b : IdBuild} {a : Word} (h : (pnum a).toNat ≤ maxNum b) :
    canon b (storedId b a) = pnum a := by
  have hflag : (pnum a).getLsbD (forceBit b) = false :=
    Nat.testBit_lt_two_pow (Nat.lt_of_le_of_lt h (maxNum_lt b))
  unfold canon storedId
  apply BitVec.eq_of_getLsbD_eq
  intro i hi
  simp only [BitVec.getLsbD_and, BitVec.getLsbD_or, BitVec.getLsbD_not, getLsbD_forceMask]
  by_cases hf : i = forceBit b
  · simp [hf, hflag]
  · have hm : (if pforce a then forceMask b else 0#32).getLsbD i = false := by
      split <;> simp [getLsbD_forceMask, hf]
    rw [hm, decide_eq_false hf]
    simp [hi]

end Sys2Proof.Machine
end

section
/-! What the edits of the signal map do to the lengths, the cells and the front of a table
(spec/42_map_admin.md R171, R174). -/

namespace Sys2Proof.Machine

/-! ## Lengths and the sentinel -/

/-- `u` has the configuration of `s` and lists of the same lengths. -/
def State.SameLengths (s u : State) : Prop :=
  u.cfg = s.cfg ∧ u.txm.length = s.txm.length ∧ u.rxm.length = s.rxm.length ∧ u.pool.length = s.pool.length ∧
    u.pdus.length = s.pdus.length

theorem State.SameLengths.trans {s u v : State} (h : s.SameLengths u) (h' : u.SameLengths v) : s.SameLengths v := by
  obtain ⟨hc, htx, hrx, hp, hd⟩ := h
  obtain ⟨hc', htx', hrx', hp', hd'⟩ := h'
  exact ⟨hc'.trans hc, htx'.trans htx, hrx'.trans hrx, hp'.trans hp, hd'.trans hd⟩

theorem State.sameLengths_setPool_set (s : State) (j : Nat) (c : Slot) :
    s.SameLengths (s.setPool (s.pool.set j c)) :=
  ⟨rfl, rfl, rfl, List.length_set, rfl⟩

theorem State.sameLengths_setTable {s : State} {t : Table} {l : List IdEntry}
    (h : l.length = (s.table t).length) : s.SameLengths (s.setTable t l) := by
  cases t
  · exact ⟨rfl, h, rfl, rfl, rfl⟩
  · exact ⟨rfl, rfl, h, rfl, rfl⟩

theorem State.SameLengths.shapeOk {s u : State} (h : s.SameLengths u) (hs : s.shapeOk) : u.shapeOk := by
  obtain ⟨hc, htx, hrx, hp, hd⟩ := h
  unfold State.shapeOk
  rw [hc, htx, hrx, hp, hd]
  exact hs

theorem State.sameLengths_link (s : State) (t : Table) (b : Binding) (i : Option Nat) (j : Nat) :
    s.SameLengths (s.link t b i j) := by
  have hcell := s.sameLengths_setPool_set j (bindingSlot b s.endLink)
  unfold State.link
  cases i with
  | none => exact hcell.trans (State.sameLengths_setTable (by simp))
  | some i =>
    dsimp only
    split
    · exact hcell
    · exact hcell.trans (State.sameLengths_setPool_set _ _ _)

theorem State.sameLengths_unlink (s : State) (pl : SlotPlace) : s.SameLengths (s.unlink pl) := by
  unfold State.unlink
  cases pl.prev with
  | none => exact (State.sameLengths_setTable (by simp)).trans (State.sameLengths_setPool_set _ _ _)
  | some q => exact (s.sameLengths_setPool_set _ _).trans (State.sameLengths_setPool_set _ _ _)

theorem State.sameLengths_compact (s : State) (t : Table) (i c : Nat) : s.SameLengths (s.compact t i c) :=
  State.sameLengths_setTable (by split <;> simp)

theorem State.sentinelOk_congr {s u : State} (hc : u.cfg = s.cfg)
    (hl : (u.slot s.cfg.maxItems).next = (s.slot s.cfg.maxItems).next) (h : s.sentinelOk) : u.sentinelOk := by
  unfold State.sentinelOk State.endLink
  rw [hc, hl]
  exact h

theorem State.slot_setPool_same {s : State} {j : Nat} (h : j < s.pool.length) (c : Slot) :
    (s.setPool (s.pool.set j c)).slot j = c := by
  rw [s.slot_setPool_set, if_pos ⟨rfl, h⟩]

theorem State.slot_setPool_ne {s : State} {j k : Nat} (h : k ≠ j) (c : Slot) :
    (s.setPool (s.pool.set j c)).slot k = s.slot k := by
  rw [s.slot_setPool_set, if_neg (fun hk => h hk.1.symm)]

/-! ## Tables edited -/

/-- The first empty entry is filled. -/
theorem State.Front.push {s : State} {t : Table} {a : List IdEntry} {e : IdEntry} (h : s.Front t a)
    (hlt : a.length < (s.table t).length) (he : s.isEmpty e = false) :
    (s.setTable t ((s.table t).set a.length e)).Front t (a ++ [e]) := by
  obtain ⟨b, htab, ha, hb⟩ := h
  cases b with
  | nil => simp [htab] at hlt
  | cons b0 b =>
    refine ⟨b, by simp [htab], ?_, ?_⟩
    · simpa [or_imp, forall_and, he] using ha
    · simpa using fun e he => hb e (List.mem_cons_of_mem b0 he)

/-- The entry behind `x` is taken out of the live ones, the last live entry filling its place. -/
theorem State.front_compact {s : State} {t : Table} {e : IdEntry} {x y b : List IdEntry}
    (htab : s.table t = x ++ e :: (y ++ b)) (hx : ∀ e ∈ x, s.isEmpty e = false) (hy : ∀ e ∈ y, s.isEmpty e = false)
    (hb : ∀ e ∈ b, s.isEmpty e = true) (hm : s.cfg.maxItems ≤ 254) :
    ∃ a, (s.compact t x.length (x ++ e :: y).length).Front t a ∧ (x ++ y).Perm a := by
  have hempty : ∀ e : IdEntry, s.isEmpty { e with first := BitVec.ofNat 16 s.cfg.maxItems } = true := by
    intro e
    unfold State.isEmpty
    rw [toNat_ofNat_first hm, beq_self_eq_true]
  unfold State.compact State.Front
  simp only [isEmpty_setTable, table_setTable_same]
  rcases List.eq_nil_or_concat y with rfl | ⟨ys, z, rfl⟩
  · have hentry : s.entry t x.length = e := by simp [State.entry, htab]
    refine ⟨x, ⟨{ e with first := BitVec.ofNat 16 s.cfg.maxItems } :: b, ?_, hx, ?_⟩, by simp⟩
    · simp [htab, hentry]
    · simpa [hempty] using hb
  · have hentry : s.entry t (x.length + (ys.length + 1)) = z := by simp [State.entry, htab]
    refine ⟨x ++ z :: ys, ⟨{ z with first := BitVec.ofNat 16 s.cfg.maxItems } :: b, ?_, fun e' he' => ?_, ?_⟩, ?_⟩
    · simp [htab, hentry]
    · rcases List.mem_append.mp he' with hxe | hze
      · exact hx e' hxe
      · exact hy e' (by simpa [or_comm] using hze)
    · simpa [hempty] using hb
    · simpa using (List.perm_append_singleton z ys).append_left x

end Sys2Proof.Machine
end

section
/-! A binding that is accepted keeps R31: a new id takes a new entry, a known one the tail of its entry's list
(spec/42_map_admin.md R170, R171). -/

namespace Sys2Proof.Machine

theorem ite_some_eq_none_iff {α : Type} {p : Prop} [Decidable p] {e : α} {o : Option α} :
    (if p then some e else o) = none ↔ ¬p ∧ o = none := by
  by_cases hp : p <;> simp [hp]

/-- R170: a binding that is not rejected has a field that fits and a numeric id of the build. -/
theorem validate_eq_none {c : Params} {b : Binding} (h : validate c b = none) :
    fieldFits { pos := b.bpos.toNat, width := nbWidth b.nb, be := b.nb.msb } ∧
      (pnum b.id).toNat ≤ maxNum c.idBuild := by
  simp only [validate, ite_some_eq_none_iff] at h
  obtain ⟨hlen, hpos, hle, hbe, hid, -⟩ := h
  unfold sprime at hbe
  unfold fieldFits
  dsimp only
  refine ⟨⟨by omega, by omega, by omega, ?_⟩, by omega⟩
  cases hb : b.nb.msb with
  | false => simpa [hb] using hle
  | true => simpa [hb] using hbe

/-- An insertion that succeeds: what the binding, the tables and the pool were like, and the new map (R171). -/
theorem State.add_done {s u : State} {t : Table} {b : Binding} (h : s.add t b = .done u) :
    b.param.toNat < s.cfg.paramLast ∧ validate s.cfg b = none ∧
      ¬(s.find t (pnum b.id) = none ∧ s.count t = s.cfg.maxMessages) ∧
      ∃ j, s.freeCell = some j ∧ u = s.link t b (s.find t (pnum b.id)) j := by
  rcases s.add_cases t b with ⟨-, ha⟩ | ⟨-, -, ha⟩ |
      ⟨-, hp, ⟨_, -, ha⟩ | ⟨hv, ⟨-, -, ha⟩ | ⟨hm, ⟨-, ha⟩ | ⟨j, hj, ha⟩⟩⟩⟩ <;>
    cases h.symm.trans ha
  exact ⟨hp, hv, hm, j, hj, rfl⟩

/-- What links a binding into cell `j` needs: `j` is a free cell, and the binding is one R170 and R171 accept. -/
structure State.Admits (s : State) (b : Binding) (j : Nat) : Prop where
  lt : j < s.cfg.maxItems
  free : (s.slot j).next = itemUnset
  fits : fieldFits { pos := b.bpos.toNat, width := nbWidth b.nb, be := b.nb.msb }
  param : b.param.toNat < s.cfg.paramLast
  id : (pnum b.id).toNat ≤ maxNum s.cfg.idBuild

theorem State.endLink_toNat {s : State} (h : s.cfg.wf = true) : s.endLink.toNat = s.cfg.maxItems :=
  toNat_ofNat_byte (Params.maxItems_le h)

theorem State.endLink_ne_itemUnset {s : State} (h : s.cfg.wf = true) : s.endLink ≠ itemUnset :=
  ne_itemUnset_of_toNat_le (State.endLink_toNat h ▸ Params.maxItems_le h)

/-- The cells of the lists once a free cell has taken a binding. -/
theorem State.Admits.cellsOk {s u : State} {b : Binding} {j : Nat} {m : List Nat} {link : Byte} (ha : s.Admits b j)
    (h : s.CellsOk m) (hc : u.cfg = s.cfg) (hj : u.slot j = bindingSlot b link) (hlink : link ≠ itemUnset)
    (hr : ∀ c, c ≠ j → s.Relinks u c) : u.CellsOk (j :: m) := by
  refine h.insert hc ha.lt ha.free ?_ ?_ hr
  · rw [hj]
    exact hlink
  · unfold State.SlotOk
    rw [hj, hc]
    exact ⟨ha.fits, ha.param, rfl⟩

theorem State.Admits.not_mem {s : State} {b : Binding} {j : Nat} {m : List Nat} (ha : s.Admits b j)
    (h : s.CellsOk m) : j ∉ m :=
  fun hm => (h.mem_iff j ha.lt).mp hm ha.free

/-- The entry a new id gets (R171). -/
def newEntry (c : Params) (b : Binding) (j : Nat) : IdEntry :=
  { id := storedId c.idBuild b.id, first := BitVec.ofNat 16 j, written := true }

theorem State.link_none_slots {s : State} {t : Table} {b : Binding} {j : Nat} (hj : j < s.pool.length) :
    (s.link t b none j).slot j = bindingSlot b s.endLink ∧
      ∀ c, c ≠ j → (s.link t b none j).slot c = s.slot c := by
  simp only [State.link, slot_setTable]
  exact ⟨State.slot_setPool_same hj _, fun c hcj => State.slot_setPool_ne hcj _⟩

theorem State.front_link_none {s : State} {t : Table} {a : List IdEntry} {b : Binding} {j : Nat}
    (h : s.Front t a) (hlt : a.length < (s.table t).length) (he : s.isEmpty (newEntry s.cfg b j) = false) :
    (s.link t b none j).Front t (a ++ [newEntry s.cfg b j]) := by
  have hcell : (s.setPool (s.pool.set j (bindingSlot b s.endLink))).Front t a := h.congr rfl (s.table_setPool t _)
  have hpush := hcell.push (by rwa [s.table_setPool]) he
  rw [s.table_setPool, ← h.count_eq] at hpush
  exact hpush

theorem State.table_link_none_other (s : State) (t : Table) (b : Binding) (j : Nat) :
    (s.link t b none j).table (otherTable t) = s.table (otherTable t) :=
  (State.table_setTable_ne _ (otherTable_ne t) _).trans (s.table_setPool _ _)

/-- A binding of a new id keeps R31. -/
theorem State.MapOn.link_none {s : State} {t : Table} {a o : List IdEntry} {b : Binding} {j : Nat}
    (h : s.MapOn t a o) (hj : s.Admits b j) (hroom : s.count t < s.cfg.maxMessages)
    (hnew : ∀ e ∈ a, canon s.cfg.idBuild e.id ≠ pnum b.id) :
    (s.link t b none j).MapOn t (a ++ [newEntry s.cfg b j]) o := by
  have hle := Params.maxItems_le h.wf
  have hpool := h.pool_length
  have hlt := hj.lt
  have hlen := s.sameLengths_link t b none j
  have hcfg := hlen.1
  obtain ⟨hsame, hother⟩ := State.link_none_slots (t := t) (b := b) (by omega : j < s.pool.length)
  have hfirst : (newEntry s.cfg b j).first.toNat = j := toNat_ofNat_first (by omega)
  have hid : canon s.cfg.idBuild (newEntry s.cfg b j).id = pnum b.id := canon_storedId hj.id
  have hfull : s.isEmpty (newEntry s.cfg b j) = false := by
    unfold State.isEmpty
    rw [hfirst, beq_eq_false_iff_ne]
    exact Nat.ne_of_lt hlt
  refine ⟨hcfg ▸ h.wf, hlen.shapeOk h.shape, State.sentinelOk_congr hcfg (by rw [hother _ (by omega)]) h.sentinel,
    State.front_link_none h.front ?_ hfull, h.otherFront.congr hcfg (s.table_link_none_other t b j),
    State.Lists.perm (List.perm_append_singleton _ a).symm ?_⟩
  · rwa [h.shape.table_length, ← h.front.count_eq]
  · refine State.lists_cons (js := [j]) h.lists.entries h.lists.others hcfg (fun c hc => ?_)
      (fun e he => hid ▸ hnew e he) ⟨hid ▸ hj.id, rfl⟩ ⟨hfirst, hcfg ▸ hlt, ?_⟩
      (hj.cellsOk h.lists.cells hcfg hsame (State.endLink_ne_itemUnset h.wf)
        fun c hcj => State.relinks_of_eq (hother c hcj))
    · rw [hother c fun hcj => hj.not_mem h.lists.cells (hcj ▸ hc)]
    · rw [hsame, hcfg]
      exact State.endLink_toNat h.wf

/-- The path of an entry with a cell appended at its tail. -/
theorem State.Path.append_cell {s u : State} {js : List Nat} {first j last k : Nat} (hc : u.cfg = s.cfg)
    (h : s.Path first (js ++ [last]) k) (hl : ∀ c ∈ js, (u.slot c).next = (s.slot c).next)
    (hlast : (u.slot last).next.toNat = j) (hj : j < u.cfg.maxItems) :
    u.Path first (js ++ [last, j]) (u.slot j).next.toNat := by
  obtain ⟨m, hp, rfl, hlt, -⟩ := State.path_append.mp h
  exact State.path_append.mpr ⟨m, hp.congr hc hl, rfl, hc ▸ hlt, hlast, hj, rfl⟩

/-- What linking a binding behind the last cell of an entry does to the cells. -/
theorem State.link_some_slots {s : State} {t : Table} {b : Binding} {i j last : Nat} {js : List Nat}
    (hjs : s.slotsOf (s.entry t i) = js ++ [last]) (hfree : j ∉ js ++ [last]) (hj : j < s.pool.length)
    (hl : last < s.pool.length) :
    (s.link t b (some i) j).slot j = bindingSlot b s.endLink ∧
      (s.link t b (some i) j).slot last = { s.slot last with next := BitVec.ofNat 8 j } ∧
      ∀ c, c ≠ j → c ≠ last → (s.link t b (some i) j).slot c = s.slot c := by
  have hlj : last ≠ j := fun hlj => hfree (hlj ▸ by simp)
  have hslots : (s.setPool (s.pool.set j (bindingSlot b s.endLink))).slotsOf (s.entry t i) = js ++ [last] := by
    rw [← hjs]
    refine State.slotsOf_of_keeps_links rfl fun c hc => ?_
    rw [State.slot_setPool_ne fun hcj : c = j => hfree (hcj ▸ hjs ▸ hc)]
  simp only [State.link, entry_setPool, hslots, List.getLast?_concat]
  refine ⟨?_, ?_, fun c hcj hcl => ?_⟩
  · rw [State.slot_setPool_ne hlj.symm, State.slot_setPool_same hj]
  · rw [State.slot_setPool_same (by simpa using hl), State.slot_setPool_ne hlj]
  · rw [State.slot_setPool_ne hcl, State.slot_setPool_ne hcj]

theorem State.table_link_some (s : State) (t u : Table) (b : Binding) (i j : Nat) :
    (s.link t b (some i) j).table u = s.table u := by
  simp only [State.link]
  split <;> simp

/-- The list of a live entry has a last cell. -/
theorem State.MapOn.exists_last {s : State} {t : Table} {a o : List IdEntry} {e : IdEntry} (h : s.MapOn t a o)
    (he : e ∈ a) : ∃ js last, s.slotsOf e = js ++ [last] := by
  refine (List.eq_nil_or_concat' _).resolve_left fun hnil => ?_
  obtain ⟨-, -, hfull, -⟩ := h.front
  have hempty := (State.isEmpty_iff_slotsOf_eq_nil (h.lists.entries.ends e he)).mpr hnil
  rw [hfull e he] at hempty
  contradiction

/-- A binding of an id the table has keeps R31. -/
theorem State.MapOn.link_some {s : State} {t : Table} {a o : List IdEntry} {b : Binding} {i j : Nat}
    (h : s.MapOn t a o) (hj : s.Admits b j) (hi : i < s.count t) : (s.link t b (some i) j).MapOn t a o := by
  have hle := Params.maxItems_le h.wf
  have hpool := h.pool_length
  have hlt := hj.lt
  have hlen := s.sameLengths_link t b (some i) j
  have hcfg := hlen.1
  have hmem : s.entry t i ∈ a := h.front.live_eq ▸ State.mem_live.mpr ⟨i, hi, rfl⟩
  obtain ⟨js, last, hjs⟩ := h.exists_last hmem
  have hlastlt : last < s.cfg.maxItems := State.slotsOf_lt (by rw [hjs]; simp)
  obtain ⟨x, y, rfl⟩ := List.append_of_mem hmem
  have hlists := h.lists.perm List.perm_middle
  have hcells : s.CellsOk (last :: (js ++ (x ++ y ++ o).flatMap s.slotsOf)) := by
    refine hlists.cells.perm ?_
    simp [hjs, List.perm_middle]
  have hfree := hj.not_mem hcells
  obtain ⟨hlast, -⟩ := List.nodup_cons.mp hcells.nodup
  obtain ⟨hsame, hmoved, hother⟩ := State.link_some_slots (b := b) hjs
    (fun hm => hfree (by grind)) (by omega : j < s.pool.length) (by omega)
  have hkeep : ∀ c ∈ js ++ (x ++ y ++ o).flatMap s.slotsOf, (s.link t b (some i) j).slot c = s.slot c := fun c hc =>
    hother c (fun hcj => hfree (hcj ▸ List.mem_cons_of_mem _ hc)) (fun hcl => hlast (hcl ▸ hc))
  refine ⟨hcfg ▸ h.wf, hlen.shapeOk h.shape, State.sentinelOk_congr hcfg (by rw [hother _ (by omega) (by omega)])
    h.sentinel, h.front.congr hcfg (s.table_link_some t _ b i j), h.otherFront.congr hcfg (s.table_link_some t _ b i j),
    State.Lists.perm List.perm_middle.symm ?_⟩
  refine State.lists_replace (js := js ++ [last, j]) hlists hcfg rfl rfl
    (fun c hc => by rw [hkeep c (List.mem_append_right _ hc)]) ?_ ?_
  · have hpath : s.Path (s.entry t i).first.toNat (js ++ [last]) s.cfg.maxItems := hjs ▸ hlists.path_head
    have hp := hpath.append_cell hcfg (fun c hc => by rw [hkeep c (List.mem_append_left _ hc)])
      (by rw [hmoved]; exact toNat_ofNat_byte (by omega)) (hcfg ▸ hlt)
    rw [hsame] at hp
    rw [hcfg, ← State.endLink_toNat h.wf]
    exact hp
  · refine State.CellsOk.perm ?_ (hj.cellsOk hcells hcfg hsame (State.endLink_ne_itemUnset h.wf) fun c hcj => ?_)
    · simpa using (List.perm_middle.trans ((List.perm_middle.cons last).trans (.swap j last _))).symm
    by_cases hcl : c = last
    · subst hcl
      have hused : (s.slot c).next ≠ itemUnset := (hcells.mem_iff c hlastlt).mp List.mem_cons_self
      refine ⟨by rw [hmoved], iff_of_false ?_ hused⟩
      rw [hmoved]
      exact ne_itemUnset_of_toNat_le (by rw [toNat_ofNat_byte] <;> omega)
    · exact State.relinks_of_eq (hother c hcj hcl)

/-- A binding that is accepted keeps R31. -/
theorem State.mapInv_add {s u : State} {t : Table} {b : Binding} (h : s.MapInv) (ha : s.add t b = .done u) :
    u.MapInv := by
  have hon := State.mapOn_of_mapInv h t
  obtain ⟨hparam, hvalid, hroom, j, hcell, rfl⟩ := State.add_done ha
  obtain ⟨hfits, hid⟩ := validate_eq_none hvalid
  have hj : s.Admits b j := by
    rcases s.freeCell_cases hon.pool_length with ⟨hnone, -⟩ | ⟨k, hk, hsome, hfree, -⟩
    · cases hcell.symm.trans hnone
    · cases hcell.symm.trans hsome
      exact ⟨hk, hfree, hfits, hparam, hid⟩
  rcases s.find_cases t (pnum b.id) with ⟨hnone, hnew⟩ | ⟨i, hi, hsome, -⟩
  · rw [hnone]
    have hle := hon.shape.table_length t ▸ s.count_le t
    have hne : s.count t ≠ s.cfg.maxMessages := fun hfull => hroom ⟨hnone, hfull⟩
    refine (hon.link_none hj (by omega) fun e he => ?_).mapInv
    obtain ⟨i, hi, rfl⟩ := State.mem_live.mp he
    exact hnew i hi
  · rw [hsome]
    exact (hon.link_some hj hi).mapInv

end Sys2Proof.Machine
end

section
/-! Removing a slot and clearing the map keep R31 (spec/42_map_admin.md R174, R175). -/

namespace Sys2Proof.Machine

/-! ## Removal -/

/-- Where the first slot of a parameter stands: behind the cells `bs` in the list of the entry behind `x` (R174). -/
theorem State.findSlot_some {s : State} {param : BitVec 16} {pl : SlotPlace} (h : s.findSlot param = some pl) :
    ∃ x e y bs cs, s.live pl.tbl = x ++ e :: y ∧ pl.entry = x.length ∧ s.slotsOf e = bs ++ pl.cell :: cs ∧
      pl.prev = bs.getLast? := by
  obtain ⟨t, ht⟩ : ∃ t, s.findInEntries t param 0 (s.live t) = some pl := by
    unfold State.findSlot at h
    split at h
    · next hpl => exact ⟨.tx, hpl.trans h⟩
    · exact ⟨.rx, h⟩
  obtain ⟨x, e, y, hlive, rfl, hentry, -, hlist⟩ := State.findInEntries_some ht
  obtain ⟨bs, cs, hjs, -, -, hprev⟩ := State.findInList_some hlist
  exact ⟨x, e, y, bs, cs, hlive, by simpa using hentry, hjs, by simpa using hprev⟩

/-- The lists once a cell has been taken out of the list of `e`, which `e'` replaces, and freed. -/
theorem State.lists_unlink {s u : State} {e e' : IdEntry} {r o : List IdEntry} {bs cs : List Nat} {j : Nat}
    (h : s.Lists (e :: r) o) (hc : u.cfg = s.cfg) (hid : e'.id = e.id) (hw : e'.written = e.written)
    (hjs : s.slotsOf e = bs ++ j :: cs) (hfree : (u.slot j).next = itemUnset) (hr : ∀ c, c ≠ j → s.Relinks u c)
    (hl : ∀ c ∈ (r ++ o).flatMap s.slotsOf, (u.slot c).next = (s.slot c).next)
    (hp : u.Path e'.first.toNat (bs ++ cs) u.cfg.maxItems) :
    u.Lists (e' :: r) o ∧ u.slotsOf e' = bs ++ cs := by
  have hcells : s.CellsOk (j :: (bs ++ cs ++ (r ++ o).flatMap s.slotsOf)) := by
    refine h.cells.perm ?_
    simp [hjs, List.perm_middle]
  have hcells' := hcells.free hc hfree hr
  exact ⟨State.lists_replace h hc hid hw hl hp hcells', hp.slotsOf_eq (List.nodup_append.mp hcells'.nodup).1⟩

theorem State.slots_unlink_first {s : State} {pl : SlotPlace} (hprev : pl.prev = none) (hj : pl.cell < s.pool.length) :
    (s.unlink pl).slot pl.cell = { s.slot pl.cell with next := itemUnset } ∧
      ∀ c, c ≠ pl.cell → (s.unlink pl).slot c = s.slot c := by
  simp only [State.unlink, hprev, slot_setTable]
  refine ⟨State.slot_setPool_same (by simpa using hj) _, fun c hc => ?_⟩
  rw [State.slot_setPool_ne hc, s.slot_setTable]

theorem State.slots_unlink_behind {s : State} {pl : SlotPlace} {q : Nat} (hprev : pl.prev = some q) (hqj : q ≠ pl.cell)
    (hj : pl.cell < s.pool.length) (hq : q < s.pool.length) :
    (s.unlink pl).slot pl.cell = { s.slot pl.cell with next := itemUnset } ∧
      (s.unlink pl).slot q = { s.slot q with next := (s.slot pl.cell).next } ∧
      ∀ c, c ≠ pl.cell → c ≠ q → (s.unlink pl).slot c = s.slot c := by
  simp only [State.unlink, hprev]
  refine ⟨?_, ?_, fun c hc hcq => ?_⟩
  · rw [State.slot_setPool_same (by simpa using hj), State.slot_setPool_ne hqj.symm]
  · rw [State.slot_setPool_ne hqj, State.slot_setPool_same hq]
  · rw [State.slot_setPool_ne hc, State.slot_setPool_ne hcq]

/-- The path of an entry whose second cell `j` of two neighbours is skipped. -/
theorem State.Path.skip_cell {s u : State} {bs cs : List Nat} {first q j k : Nat} (hc : u.cfg = s.cfg)
    (h : s.Path first (bs ++ [q] ++ j :: cs) k) (hl : ∀ c ∈ bs ++ cs, (u.slot c).next = (s.slot c).next)
    (hq : (u.slot q).next = (s.slot j).next) : u.Path first (bs ++ [q] ++ cs) k := by
  obtain ⟨hlb, hlc⟩ := List.forall_mem_append.mp hl
  obtain ⟨_, hbq, rfl, -, hcs⟩ := State.path_append.mp h
  obtain ⟨_, hbs, rfl, hlt, -⟩ := State.path_append.mp hbq
  refine State.path_append.mpr ⟨_, State.path_append.mpr ⟨_, hbs.congr hc hlb, rfl, hc ▸ hlt, rfl⟩, ?_⟩
  rw [hq]
  exact hcs.congr hc hlc

/-- What unlinking leaves in `u`: behind `x`, the entry `e'` in the place of `e`, with the list `js`. -/
structure State.Unlinks (s u : State) (t : Table) (x y o : List IdEntry) (e e' : IdEntry) (js : List Nat) : Prop where
  table : ∀ b, s.table t = x ++ e :: b → u.table t = x ++ e' :: b
  other : u.table (otherTable t) = s.table (otherTable t)
  sentinel : u.sentinelOk
  lists : u.Lists (e' :: (x ++ y)) o
  slots : u.slotsOf e' = js

/-- The first cell of an entry's list is unlinked: the entry takes over its link. -/
theorem State.MapOn.unlink_first {s : State} {pl : SlotPlace} {x y o : List IdEntry} {e : IdEntry} {cs : List Nat}
    (h : s.MapOn pl.tbl (x ++ e :: y) o) (hentry : pl.entry = x.length) (hjs : s.slotsOf e = pl.cell :: cs)
    (hprev : pl.prev = none) :
    s.Unlinks (s.unlink pl) pl.tbl x y o e { e with first := (s.slot pl.cell).next.setWidth 16 } cs := by
  have hpool := h.pool_length
  have hcfg := (s.sameLengths_unlink pl).1
  have hlt : pl.cell < s.cfg.maxItems := State.slotsOf_lt (by rw [hjs]; simp)
  have hlists := h.lists.perm List.perm_middle
  have hcells : s.CellsOk (pl.cell :: (cs ++ (x ++ y ++ o).flatMap s.slotsOf)) := by
    simpa [hjs] using hlists.cells
  obtain ⟨hcell, -⟩ := List.nodup_cons.mp hcells.nodup
  obtain ⟨hfree, hother⟩ := State.slots_unlink_first hprev (by omega : pl.cell < s.pool.length)
  have hkeep : ∀ c ∈ cs ++ (x ++ y ++ o).flatMap s.slotsOf, (s.unlink pl).slot c = s.slot c :=
    fun c hc => hother c fun hcj => hcell (hcj ▸ hc)
  have hunlinked := State.lists_unlink (bs := []) (e' := { e with first := (s.slot pl.cell).next.setWidth 16 })
    hlists hcfg rfl rfl hjs (by rw [hfree]) (fun c hc => State.relinks_of_eq (hother c hc))
    (fun c hc => by rw [hkeep c (List.mem_append_right _ hc)]) (by
      have hfirst : ((s.slot pl.cell).next.setWidth 16).toNat = (s.slot pl.cell).next.toNat :=
        BitVec.toNat_setWidth_of_le (by decide)
      obtain ⟨-, -, hp⟩ : s.Path e.first.toNat (pl.cell :: cs) s.cfg.maxItems := hjs ▸ hlists.path_head
      rw [hfirst, hcfg]
      exact hp.congr hcfg fun c hc => by rw [hkeep c (List.mem_append_left _ hc)])
  refine ⟨fun b hb => ?_, ?_, State.sentinelOk_congr hcfg (by rw [hother _ (by omega)]) h.sentinel, hunlinked.1,
    hunlinked.2⟩
  · have he : s.entry pl.tbl pl.entry = e := by simp [State.entry, hb, hentry]
    simp only [State.unlink, hprev, table_setPool, he]
    simp [hb, hentry]
  · simp only [State.unlink, hprev, table_setPool]
    exact s.table_setTable_ne (otherTable_ne _) _

/-- A cell behind another is unlinked: the one before it takes over its link. -/
theorem State.MapOn.unlink_behind {s : State} {pl : SlotPlace} {x y o : List IdEntry} {e : IdEntry}
    {bs cs : List Nat} {q : Nat} (h : s.MapOn pl.tbl (x ++ e :: y) o)
    (hjs : s.slotsOf e = bs ++ [q] ++ pl.cell :: cs) (hprev : pl.prev = some q) :
    s.Unlinks (s.unlink pl) pl.tbl x y o e e (bs ++ [q] ++ cs) := by
  have hpool := h.pool_length
  have hcfg := (s.sameLengths_unlink pl).1
  have hlt : pl.cell < s.cfg.maxItems := State.slotsOf_lt (by rw [hjs]; simp)
  have hq : q < s.cfg.maxItems := State.slotsOf_lt (by rw [hjs]; simp)
  have hlists := h.lists.perm List.perm_middle
  have hcells : s.CellsOk (q :: pl.cell :: (bs ++ cs ++ (x ++ y ++ o).flatMap s.slotsOf)) := by
    refine hlists.cells.perm ?_
    simpa [hjs] using List.perm_middle.trans (List.perm_middle.cons q)
  obtain ⟨hqrest, hcells'⟩ := List.nodup_cons.mp hcells.nodup
  obtain ⟨hcell, -⟩ := List.nodup_cons.mp hcells'
  obtain ⟨hqj, hqrest⟩ := not_or.mp (mt List.mem_cons.mpr hqrest)
  obtain ⟨hfree, hmoved, hother⟩ := State.slots_unlink_behind hprev hqj (by omega : pl.cell < s.pool.length) (by omega)
  have hkeep : ∀ c ∈ bs ++ cs ++ (x ++ y ++ o).flatMap s.slotsOf, (s.unlink pl).slot c = s.slot c := fun c hc =>
    hother c (fun hcj => hcell (hcj ▸ hc)) (fun hcq => hqrest (hcq ▸ hc))
  have hrelinks : ∀ c, c ≠ pl.cell → s.Relinks (s.unlink pl) c := by
    intro c hc
    by_cases hcq : c = q
    · subst hcq
      refine ⟨by rw [hmoved], iff_of_false ?_ ((hcells.mem_iff c hq).mp (by simp))⟩
      rw [hmoved]
      exact (hcells.mem_iff pl.cell hlt).mp (by simp)
    · exact State.relinks_of_eq (hother c hc hcq)
  have hunlinked := State.lists_unlink (e' := e) hlists hcfg rfl rfl hjs (by rw [hfree]) hrelinks
    (fun c hc => by rw [hkeep c (List.mem_append_right _ hc)]) (by
      have hp : s.Path e.first.toNat (bs ++ [q] ++ pl.cell :: cs) s.cfg.maxItems := hjs ▸ hlists.path_head
      rw [hcfg]
      exact hp.skip_cell hcfg (fun c hc => by rw [hkeep c (List.mem_append_left _ hc)]) (by rw [hmoved]))
  exact ⟨fun b hb => by simpa [State.unlink, hprev] using hb, by simp [State.unlink, hprev],
    State.sentinelOk_congr hcfg (by rw [hother _ (by omega) (by omega)]) h.sentinel, hunlinked.1, hunlinked.2⟩

theorem State.MapOn.unlink {s : State} {pl : SlotPlace} {x y o : List IdEntry} {e : IdEntry} {bs cs : List Nat}
    (h : s.MapOn pl.tbl (x ++ e :: y) o) (hentry : pl.entry = x.length) (hjs : s.slotsOf e = bs ++ pl.cell :: cs)
    (hprev : pl.prev = bs.getLast?) : ∃ e', s.Unlinks (s.unlink pl) pl.tbl x y o e e' (bs ++ cs) := by
  rcases List.eq_nil_or_concat' bs with rfl | ⟨bs, q, rfl⟩
  · exact ⟨_, h.unlink_first hentry hjs hprev⟩
  · exact ⟨e, h.unlink_behind hjs (hprev.trans (by simp))⟩

theorem State.table_compact_other (s : State) (t : Table) (i c : Nat) :
    (s.compact t i c).table (otherTable t) = s.table (otherTable t) :=
  s.table_setTable_ne (otherTable_ne t) _

/-- Where the entry behind `x` is emptied, compacting the table keeps R31 (R174). -/
theorem State.MapOn.compact {s u : State} {t : Table} {x y o b : List IdEntry} {e e' : IdEntry}
    (h : s.MapOn t (x ++ e :: y) o) (hlen : s.SameLengths u) (hsen : u.sentinelOk)
    (htab : u.table t = x ++ e' :: (y ++ b)) (hother : u.Front (otherTable t) o)
    (hfull : ∀ e ∈ x ++ y, u.isEmpty e = false) (hempty : ∀ e ∈ b, u.isEmpty e = true)
    (hlists : u.Lists (e' :: (x ++ y)) o) (hnil : u.isEmpty e' = true) :
    (u.compact t x.length (s.count t)).MapInv := by
  obtain ⟨hx, hy⟩ := List.forall_mem_append.mp hfull
  have hcfg := hlen.1
  have hwf : u.cfg.wf = true := hcfg ▸ h.wf
  have hcount : s.count t = (x ++ e' :: y).length := by simp [h.front.count_eq]
  obtain ⟨a, hfront, hperm⟩ := State.front_compact htab hx hy hempty (Params.maxItems_le hwf)
  rw [hcount]
  have hlen' := hlen.trans (u.sameLengths_compact t x.length (x ++ e' :: y).length)
  have hcfg' : (u.compact t x.length (x ++ e' :: y).length).cfg = u.cfg := u.setTable_cfg t _
  have hslots := (State.isEmpty_iff_slotsOf_eq_nil (hlists.entries.ends e' List.mem_cons_self)).mp hnil
  refine State.MapOn.mapInv (t := t) (o := o) ⟨hcfg' ▸ hwf, hlen'.shapeOk h.shape, ?_, hfront, ?_, ?_⟩
  · exact State.sentinelOk_congr hcfg' (congrArg Slot.next (u.slot_setTable t _ _)) hsen
  · exact hother.congr hcfg' (u.table_compact_other t _ _)
  · exact ((hlists.drop_empty hslots).perm hperm).congr hcfg' (u.setTable_pool t _)

/-- MAP.RM of a bound parameter keeps R31. -/
theorem State.mapInv_removeSlot {s : State} {param : BitVec 16} {pl : SlotPlace} (h : s.MapInv)
    (hpl : s.findSlot param = some pl) : (s.removeSlot pl).MapInv := by
  obtain ⟨x, e, y, bs, cs, hlive, hentry, hjs, hprev⟩ := State.findSlot_some hpl
  have hon := State.mapOn_of_mapInv h pl.tbl
  rw [hlive] at hon
  obtain ⟨e', htab, hothertab, hsen, hlists, -⟩ := hon.unlink hentry hjs hprev
  have hlen := s.sameLengths_unlink pl
  have hcfg := hlen.1
  have hisEmpty : (s.unlink pl).isEmpty = s.isEmpty := by unfold State.isEmpty; rw [hcfg]
  have hother := hon.otherFront.congr hcfg hothertab
  obtain ⟨b, htab0, hfull, hempty⟩ := hon.front
  rw [List.append_assoc] at htab0
  have htab1 := htab _ htab0
  have hfull' : ∀ e ∈ x ++ y, (s.unlink pl).isEmpty e = false :=
    hisEmpty ▸ (List.forall_mem_cons.mp fun e he => hfull e (List.perm_middle.mem_iff.mpr he)).2
  have hentry' : (s.unlink pl).entry pl.tbl pl.entry = e' := by simp [State.entry, htab1, hentry]
  simp only [State.removeSlot, hentry']
  split
  · next hnil =>
    rw [hentry]
    exact hon.compact hlen hsen htab1 hother hfull' (hisEmpty ▸ hempty) hlists hnil
  · next hne =>
    have hall : ∀ e ∈ e' :: (x ++ y), (s.unlink pl).isEmpty e = false :=
      List.forall_mem_cons.mpr ⟨Bool.eq_false_of_not_eq_true hne, hfull'⟩
    have hfront : (s.unlink pl).Front pl.tbl (x ++ e' :: y) :=
      ⟨b, by simpa using htab1, fun e he => hall e (List.perm_middle.mem_iff.mp he), hisEmpty ▸ hempty⟩
    exact State.MapOn.mapInv
      ⟨hcfg ▸ hon.wf, hlen.shapeOk hon.shape, hsen, hfront, hother, hlists.perm List.perm_middle.symm⟩

/-! ## The empty map -/

/-- R31 holds where every entry is empty and every cell free. -/
theorem State.mapInv_of_empty {s : State} (hwf : s.cfg.wf = true) (hshape : s.shapeOk) (hsen : s.sentinelOk)
    (he : ∀ t, ∀ e ∈ s.table t, s.isEmpty e = true) (hc : ∀ j < s.cfg.maxItems, (s.slot j).next = itemUnset) :
    s.MapInv := by
  have hfront : ∀ t, s.Front t [] := fun t => ⟨s.table t, rfl, by simp, he t⟩
  have hentries : s.EntriesOk [] := ⟨by simp, by simp, by simp⟩
  exact State.MapOn.mapInv (t := .tx) ⟨hwf, hshape, hsen, hfront _, hfront _, hentries, hentries,
    ⟨by simp, by simpa using hc, by simp⟩⟩

theorem State.isEmpty_of_first {s : State} {e : IdEntry} (hwf : s.cfg.wf = true)
    (he : e.first = BitVec.ofNat 16 s.cfg.maxItems) : s.isEmpty e = true := by
  unfold State.isEmpty
  rw [he, toNat_ofNat_first (Params.maxItems_le hwf), beq_self_eq_true]

theorem State.slot_clearMap_lt {s : State} {j : Nat} (hlen : s.cfg.maxItems ≤ s.pool.length)
    (hj : j < s.cfg.maxItems) : s.clearMap.slot j = { s.slot j with next := itemUnset } := by
  have hjp : j < s.pool.length := by omega
  simp [State.slot, State.clearMap, List.getElem?_append, hj, hjp]

theorem State.slot_clearMap_ge {s : State} {j : Nat} (hlen : s.cfg.maxItems ≤ s.pool.length)
    (hj : s.cfg.maxItems ≤ j) : s.clearMap.slot j = s.slot j := by
  simp [State.slot, State.clearMap, List.getElem?_append, hlen, hj, Nat.not_lt.mpr hj]

/-- MAP.CLR keeps R31 (R175). -/
theorem State.mapInv_clearMap {s : State} (h : s.MapInv) : s.clearMap.MapInv := by
  obtain ⟨hwf, hshape, hsen, -⟩ := State.mapOn_of_mapInv h .tx
  obtain ⟨htx, hrx, hp, hd⟩ := hshape
  have hle : s.cfg.maxItems ≤ s.pool.length := by omega
  refine State.mapInv_of_empty (s := s.clearMap) hwf ⟨?_, ?_, ?_, hd⟩ ?_ ?_ fun j hj => ?_
  · simpa [State.clearMap] using htx
  · simpa [State.clearMap] using hrx
  · simp [State.clearMap, hp]
  · exact State.sentinelOk_congr (s := s) rfl (congrArg Slot.next (State.slot_clearMap_ge hle (Nat.le_refl _))) hsen
  · intro t e he
    have hfirst : e.first = BitVec.ofNat 16 s.cfg.maxItems := by
      cases t <;> obtain ⟨e0, -, rfl⟩ := List.mem_map.mp he <;> rfl
    exact State.isEmpty_of_first hwf hfirst
  · rw [State.slot_clearMap_lt hle hj]

end Sys2Proof.Machine
end

section
/-! What a command can do to the PDU state and to the oracles' answers, and the invariants of spec/10_state.md. -/

namespace Sys2Proof

/-! ## The elements of a schema -/

theorem Schema.isCounter_of_counter?_eq_none {sc : Schema} (h : sc.counter? = none) :
    ∀ e ∈ sc.elems, e.isCounter = false := by
  intro e he
  have hnone := List.findSome?_eq_none_iff.mp h e he
  cases e with
  | counter c => cases hnone
  | field _ => rfl
  | crc8 _ => rfl

/-- A well-formed schema has no counter before or behind the one `counter?` gives (R210). -/
theorem Schema.elems_of_counter?_eq_some {sc : Schema} {c : PduCounter} (hwf : sc.wf = true)
    (h : sc.counter? = some c) :
    1 ≤ c.modulus.toNat ∧ ∃ x y, sc.elems = x ++ .counter c :: y ∧ (∀ e ∈ x, e.isCounter = false) ∧
      ∀ e ∈ y, e.isCounter = false := by
  obtain ⟨x, e, y, helems, he, -⟩ := List.findSome?_eq_some_iff.mp h
  have hec : e = .counter c := by
    cases e with
    | counter c' => rw [Option.some.inj he]
    | field _ => cases he
    | crc8 _ => cases he
  subst hec
  simp only [Schema.wf, Bool.and_eq_true, decide_eq_true_eq, List.all_eq_true] at hwf
  obtain ⟨⟨⟨hall, hone⟩, -⟩, -⟩ := hwf
  have hmod := hall (.counter c) (by simp [helems])
  simp only [Element.wf, Bool.and_eq_true, decide_eq_true_eq] at hmod
  have hzero : x.countP Element.isCounter = 0 ∧ y.countP Element.isCounter = 0 := by
    rw [helems, List.countP_append, List.countP_cons_of_pos rfl] at hone
    omega
  refine ⟨hmod.2, x, y, helems, ?_, ?_⟩
  · simpa using List.countP_eq_zero.mp hzero.1
  · simpa using List.countP_eq_zero.mp hzero.2

namespace Machine

theorem foldl_packElement_reads (s : State) (k : Byte) (l : List Element) (acc : PackAcc) :
    (l.foldl (packElement s k) acc).reads = acc.reads + (l.filter isFieldElement).length := by
  induction l generalizing acc with
  | nil => rfl
  | cons e l ih =>
    rw [List.foldl_cons, ih]
    cases e <;> simp [packElement, isFieldElement, List.filter_cons, Nat.add_assoc, Nat.add_comm 1]

/-- Packing reads one variable for each field (R213). -/
theorem packElements_reads (s : State) (k : Byte) (sc : Schema) :
    (packElements s k sc).reads = (sc.elems.filter isFieldElement).length :=
  (foldl_packElement_reads s k sc.elems _).trans (Nat.zero_add _)

theorem foldl_packElement_txc (s : State) (k : Byte) {l : List Element} (h : ∀ e ∈ l, e.isCounter = false)
    (acc : PackAcc) : (l.foldl (packElement s k) acc).txc = acc.txc := by
  induction l generalizing acc with
  | nil => rfl
  | cons e l ih =>
    obtain ⟨he, hl⟩ := List.forall_mem_cons.mp h
    rw [List.foldl_cons, ih hl]
    cases e with
    | counter c => cases he
    | field _ => rfl
    | crc8 _ => rfl

/-- Packing a schema without a counter leaves the transmit counter (R213). -/
theorem packElements_txc_of_none (s : State) (k : Byte) {sc : Schema} (h : sc.counter? = none) :
    (packElements s k sc).txc = (s.pdu k.toNat).txc :=
  foldl_packElement_txc s k (Schema.isCounter_of_counter?_eq_none h) _

/-- Packing a schema with a counter advances the transmit counter once (R213). -/
theorem packElements_txc_of_some (s : State) (k : Byte) {sc : Schema} {c : PduCounter} (hwf : sc.wf = true)
    (h : sc.counter? = some c) : (packElements s k sc).txc = nextCount (s.pdu k.toNat).txc c.modulus := by
  obtain ⟨-, x, y, helems, hx, hy⟩ := Schema.elems_of_counter?_eq_some hwf h
  unfold packElements
  rw [helems, List.foldl_append, List.foldl_cons, foldl_packElement_txc s k hy]
  simp only [packElement, foldl_packElement_txc s k hx]

theorem nextCount_lt {c modulus : Word} (h : 1 ≤ modulus.toNat) : (nextCount c modulus).toNat < modulus.toNat := by
  unfold nextCount
  rw [BitVec.toNat_ofNat]
  exact Nat.lt_of_le_of_lt (Nat.mod_le _ _) (Nat.mod_lt _ h)

/-- Unpacking a schema without a counter leaves the received counter (R214). -/
theorem receivedCount_of_none {sc : Schema} (h : sc.counter? = none) (p : Payload) (old : Word) :
    receivedCount p sc old = old := by
  have hl := Schema.isCounter_of_counter?_eq_none h
  unfold receivedCount
  generalize sc.elems = l at hl
  induction l with
  | nil => rfl
  | cons e l ih =>
    obtain ⟨he, hrest⟩ := List.forall_mem_cons.mp hl
    rw [List.foldl_cons]
    cases e with
    | counter c => cases he
    | field _ => exact ih hrest
    | crc8 _ => exact ih hrest

/-! ## What a command can do to the PDU state -/

theorem State.RaisesOrEdits.pdus_eq {s t : State} (h : s.RaisesOrEdits t) : t.pdus = s.pdus := by
  obtain ⟨r, rfl⟩ | ⟨-, u, v, es, hu, rfl⟩ := h
  · rfl
  · rw [hu]
    rfl

/-- `t` has the PDU state of `s`, or that of PDU `k` after a PDU.PACK or a PDU.UNPACK of it (R213, R214). -/
inductive PduEffect (i : Instr) (s t : State) : Prop
  | same (h : t.pdus = s.pdus)
  | packed (k : Byte) (sc : Schema) (hi : i = .pduPack k) (hsc : s.cfg.schemas[k.toNat]? = some sc)
      (h : t.pdus = s.pdus.set k.toNat { s.pdu k.toNat with txc := (packElements s k sc).txc })
  | unpacked (k : Byte) (p : Payload) (sc : Schema) (rxc : Word) (ok : Bool) (hi : i = .pduUnpack k p)
      (hsc : s.cfg.schemas[k.toNat]? = some sc)
      (hrxc : rxc = receivedCount p sc (s.pdu k.toNat).rxc ∨ rxc = (s.pdu k.toNat).rxc)
      (h : t.pdus = s.pdus.set k.toNat { s.pdu k.toNat with rxc := rxc, crcOk := ok })

theorem execPduPack_effect {k : Byte} {s t : State} (h : execPduPack k s = .next t) :
    PduEffect (.pduPack k) s t := by
  unfold execPduPack at h
  split at h
  · cases h
    exact .same rfl
  · next sc hsc =>
    cases h
    exact .packed k sc rfl hsc rfl

theorem execPduUnpack_effect {k : Byte} {p : Payload} {s t : State} (h : execPduUnpack k p s = .next t) :
    PduEffect (.pduUnpack k p) s t := by
  unfold execPduUnpack at h
  split at h
  · cases h
    exact .same rfl
  · next sc hsc =>
    cases h
    refine .unpacked k p sc _ _ rfl hsc ?_ rfl
    split
    · exact .inl rfl
    · exact .inr rfl

theorem exec_pduEffect {i : Instr} {s t : State} (h : exec i s = .next t) : PduEffect i s t := by
  cases i with
  | mapAddrx | mapAddtx | mapRm | mapClr => exact .same (exec_mutation rfl h).pdus_eq
  | pduPack k => exact execPduPack_effect h
  | pduUnpack k p => exact execPduUnpack_effect h
  | fxGet | fxOr | fxIns | fxDec | fxEnc | crc8Calc | mapRereg =>
    cases h
    exact .same rfl
  | mapRde | mapRds | pduStat | frameTxall =>
    simp only [exec, execMapRde, execMapRds, execPduStat, execFrameTxall] at h
    split at h <;> cases h <;> exact .same rfl
  | frameRx =>
    simp only [exec, execFrameRx] at h
    split at h
    · cases h
      exact .same rfl
    · split at h <;> cases h <;> exact .same rfl

theorem PduEffect.length_eq {i : Instr} {s t : State} (h : PduEffect i s t) : t.pdus.length = s.pdus.length := by
  cases h with
  | same h => rw [h]
  | packed k sc hi hsc h => rw [h, List.length_set]
  | unpacked k p sc rxc ok hi hsc hrxc h => rw [h, List.length_set]

theorem State.pdu_of_pdus_eq {s t : State} (h : t.pdus = s.pdus) (k : Nat) : t.pdu k = s.pdu k := by
  unfold State.pdu
  rw [h]

theorem State.pdu_of_pdus_set {s t : State} {k : Nat} {d : PduState} (h : t.pdus = s.pdus.set k d) (c : Nat) :
    t.pdu c = s.pdu c ∨ c = k ∧ t.pdu c = d := by
  unfold State.pdu
  rw [h, List.getElem?_set]
  by_cases hkc : k = c
  · subst hkc
    by_cases hl : k < s.pdus.length
    · exact .inr ⟨rfl, by simp [hl]⟩
    · exact .inl (by simp [hl])
  · exact .inl (by simp [hkc])

/-- Settles O17, by the three things a command can do to the PDU state. -/
theorem pduStateChangesOnlyInItsCommands : Obligations.PduStateChangesOnlyInItsCommands := by
  intro i s t c h
  cases exec_pduEffect h with
  | same h =>
    rw [State.pdu_of_pdus_eq h]
    exact ⟨fun _ => rfl, fun _ => ⟨rfl, rfl⟩⟩
  | packed k sc hi hsc h =>
    rcases State.pdu_of_pdus_set h c with hc | ⟨rfl, hc⟩ <;> rw [hc]
    · exact ⟨fun _ => rfl, fun _ => ⟨rfl, rfl⟩⟩
    · exact ⟨fun hk => absurd rfl (hk k hi), fun _ => ⟨rfl, rfl⟩⟩
  | unpacked k p sc rxc ok hi hsc hrxc h =>
    rcases State.pdu_of_pdus_set h c with hc | ⟨rfl, hc⟩ <;> rw [hc]
    · exact ⟨fun _ => rfl, fun _ => ⟨rfl, rfl⟩⟩
    · exact ⟨fun _ => rfl, fun hk => absurd rfl (hk k p hi)⟩

/-! ## What a command takes from the oracles -/

/-- `t` has the answers waiting in `s`, and counts no fewer free values as drawn. -/
def State.KeepsAnswers (s t : State) : Prop :=
  s.draws ≤ t.draws ∧ t.paramAnswers = s.paramAnswers ∧ t.varAnswers = s.varAnswers

theorem State.RaisesOrEdits.keepsAnswers {s t : State} (h : s.RaisesOrEdits t) : s.KeepsAnswers t := by
  obtain ⟨r, rfl⟩ | ⟨-, u, v, es, hu, rfl⟩ := h
  · exact ⟨Nat.le_refl _, rfl, rfl⟩
  · rw [hu]
    exact ⟨Nat.le_refl _, rfl, rfl⟩

/-- R40: no command but FRAME.TXALL and PDU.PACK reads an oracle. -/
theorem exec_keepsAnswers {i : Instr} {s t : State} (h : exec i s = .next t) (htx : i ≠ .frameTxall)
    (hpack : ∀ k, i ≠ .pduPack k) : s.KeepsAnswers t := by
  cases i with
  | mapAddrx | mapAddtx | mapRm | mapClr => exact (exec_mutation rfl h).keepsAnswers
  | pduPack k => exact absurd rfl (hpack k)
  | frameTxall => exact absurd rfl htx
  | fxGet | fxOr | fxIns | fxDec | crc8Calc | mapRereg =>
    cases h
    exact ⟨Nat.le_refl _, rfl, rfl⟩
  | fxEnc =>
    cases h
    exact ⟨Nat.le_add_right _ _, rfl, rfl⟩
  | mapRde | mapRds =>
    simp only [exec, execMapRde, execMapRds] at h
    split at h <;> cases h
    · exact ⟨Nat.le_refl _, rfl, rfl⟩
    · exact ⟨Nat.le_add_right _ _, rfl, rfl⟩
  | pduStat | pduUnpack =>
    simp only [exec, execPduStat, execPduUnpack] at h
    split at h <;> cases h <;> exact ⟨Nat.le_refl _, rfl, rfl⟩
  | frameRx =>
    simp only [exec, execFrameRx] at h
    split at h
    · cases h
      exact ⟨Nat.le_refl _, rfl, rfl⟩
    · split at h <;> cases h
      · exact ⟨Nat.le_refl _, rfl, rfl⟩
      · exact ⟨Nat.le_add_right _ _, rfl, rfl⟩

theorem entryReads_eq_sum (s : State) (l : List IdEntry) :
    entryReads s l = (l.map fun e => (s.slotsOf e).length).sum := by
  induction l with
  | nil => rfl
  | cons e l ih => rw [entryReads, ih, List.map_cons, List.sum_cons]

/-- FRAME.TXALL reads one parameter for each slot of a transmit entry (R144). -/
theorem execFrameTxall_answers {s t : State} (h : execFrameTxall s = .next t) :
    s.draws ≤ t.draws ∧ t.varAnswers = s.varAnswers ∧
      (s.saveBusy = false →
        t.paramAnswers = s.paramAnswers.drop ((s.live .tx).map fun e => (s.slotsOf e).length).sum) := by
  unfold execFrameTxall at h
  split at h <;> cases h
  · next hb => exact ⟨Nat.le_refl _, rfl, fun hb' => absurd hb (by simp [hb'])⟩
  · exact ⟨Nat.le_add_right _ _, rfl, fun _ => entryReads_eq_sum s _ ▸ rfl⟩

/-- PDU.PACK reads one variable for each field of its schema (R213). -/
theorem execPduPack_answers {k : Byte} {s t : State} (h : execPduPack k s = .next t) :
    s.draws ≤ t.draws ∧ t.paramAnswers = s.paramAnswers ∧
      ∀ sc : Schema, s.cfg.schemas[k.toNat]? = some sc →
        t.varAnswers = s.varAnswers.drop (sc.elems.filter isFieldElement).length := by
  unfold execPduPack at h
  split at h
  · next hnone =>
    cases h
    exact ⟨Nat.le_refl _, rfl, fun sc hsc => absurd (hnone.symm.trans hsc) (by simp)⟩
  · next sc hsome =>
    cases h
    refine ⟨Nat.le_add_right _ _, rfl, fun sc' hsc' => ?_⟩
    cases hsome.symm.trans hsc'
    rw [State.useVarAnswers_varAnswers, packElements_reads]
    rfl

/-- Settles O18, by the answers FRAME.TXALL and PDU.PACK take; no other command takes any. -/
theorem oracleAnswersAreTakenInOrder : Obligations.OracleAnswersAreTakenInOrder := by
  intro i s t h
  by_cases htx : i = .frameTxall
  · subst htx
    obtain ⟨hd, hv, hp⟩ := execFrameTxall_answers h
    exact ⟨hd, fun hne => absurd rfl hne, fun _ => hp, fun _ => hv, fun k sc hi => by cases hi⟩
  by_cases hpack : ∃ k, i = .pduPack k
  · obtain ⟨k, rfl⟩ := hpack
    obtain ⟨hd, hp, hv⟩ := execPduPack_answers h
    exact ⟨hd, fun _ => hp, fun hi => absurd hi htx, fun hne => absurd rfl (hne k),
      fun k' sc hi => by cases hi; exact hv sc⟩
  · have hpack' : ∀ k, i ≠ .pduPack k := fun k hk => hpack ⟨k, hk⟩
    obtain ⟨hd, hp, hv⟩ := exec_keepsAnswers h htx hpack'
    exact ⟨hd, fun _ => hp, fun hi => absurd hi htx, fun _ => hv, fun k sc hi => absurd hi (hpack' k)⟩

end Machine
end Sys2Proof
end

section
/-! The invariants of spec/10_state.md (R31 to R33): at reset, and kept by every step. -/

namespace Sys2Proof.Machine

/-! ## The fault bit and the map, by what a command can do -/

theorem State.ReportsOnly.fault_eq {s t : State} (h : s.ReportsOnly t) : t.pf = s.pf ∧ t.pfReason = s.pfReason := by
  rw [h.1]
  exact ⟨rfl, rfl⟩

theorem State.ReportsOnly.sameMap {s t : State} (h : s.ReportsOnly t) : sameMap s t := by
  rw [h.1]
  exact ⟨rfl, rfl, rfl⟩

theorem State.RaisesOrEdits.fault_cases {s t : State} (h : s.RaisesOrEdits t) :
    (∃ r, t = s.raise r) ∨ t.pf = s.pf ∧ t.pfReason = s.pfReason := by
  obtain hr | ⟨-, u, v, es, hu, rfl⟩ := h
  · exact .inl hr
  · rw [hu]
    exact .inr ⟨rfl, rfl⟩

/-- R33: a command raises a protocol fault or leaves the fault state. -/
theorem exec_fault_cases {i : Instr} {s t : State} (h : exec i s = .next t) :
    (Mutates i = true ∧ ∃ r, t = s.raise r) ∨ t.pf = s.pf ∧ t.pfReason = s.pfReason := by
  cases hm : Mutates i with
  | true => exact (exec_mutation hm h).fault_cases.imp_left fun hr => ⟨rfl, hr⟩
  | false => exact .inr (exec_report hm h).fault_eq

/-- Settles O8: a command raises a fault or leaves the bit, and of the other inputs only a reset clears it. -/
theorem faultBitIsSticky : Obligations.FaultBitIsSticky := by
  refine ⟨fun i s t h hs ht => ?_, fun i s t h hs => ?_, fun s t h hs ht => ?_⟩
  · obtain hraise | ⟨hpf, -⟩ := exec_fault_cases h
    · exact hraise
    · rw [hpf, hs] at ht
      contradiction
  · obtain ⟨-, r, rfl⟩ | ⟨hpf, -⟩ := exec_fault_cases h
    · rfl
    · rw [hpf, hs]
  · obtain ⟨-, ⟨-, rfl⟩ | ⟨level, rest, -, rfl⟩ | ⟨rest, hrest, -⟩ | ⟨cr, rest, -, hpf, -⟩⟩ := step_cases h
    · exact absurd (hs.symm.trans ht) (by decide)
    · exact absurd (hs.symm.trans ht) (by decide)
    · exact ⟨rest, hrest⟩
    · exact absurd (hs.symm.trans hpf) (by decide)

/-- Settles O16: during a save a mutation only raises a fault, and the frame commands stop at their guard. -/
theorem saveInProgressFreezesTheMap : Obligations.SaveInProgressFreezesTheMap := by
  refine ⟨fun i s t hb h => ?_, fun id p dlc s hb => if_pos hb, fun s hb => if_pos hb⟩
  cases hm : Mutates i with
  | false => exact (exec_report hm h).sameMap
  | true =>
    obtain ⟨r, rfl⟩ | ⟨hb', -⟩ := exec_mutation hm h
    · exact ⟨rfl, rfl, rfl⟩
    · exact absurd (hb.symm.trans hb') (by decide)

theorem step_of_done {s t : State} (h : s.accept = .done t) : step s = .next t := by
  unfold step
  rw [h]

/-- Settles O11, by what the step takes from the inputs. -/
theorem saveBusyInputAndIdle : Obligations.SaveBusyInputAndIdle := by
  refine ⟨fun s level rest hwf hi => ?_, fun s hwf hi => ?_⟩
  · exact step_of_done (t := (s.setInputs rest).setSaveBusy level) (by simp [State.accept, hwf, hi])
  · exact step_of_done (by simp [State.accept, hwf, hi])

/-! ## The state after reset -/

@[simp] theorem State.entry_resetWith (c : Params) (t : Table) (i : Nat) :
    (State.resetWith c).entry t i = IdEntry.atReset c := by
  cases t <;> by_cases hi : i < c.maxMessages <;>
    simp [State.entry, State.table, State.resetWith, hi]

theorem State.mem_table_resetWith {c : Params} {t : Table} {e : IdEntry} (h : e ∈ (State.resetWith c).table t) :
    e = IdEntry.atReset c := by
  cases t <;> exact List.eq_of_mem_replicate h

theorem State.slot_resetWith_lt {c : Params} {j : Nat} (h : j < c.maxItems) :
    (State.resetWith c).slot j = Slot.atReset itemUnset := by
  simp [State.slot, State.resetWith, List.getElem?_append, h]

theorem State.slot_resetWith_sentinel (c : Params) :
    (State.resetWith c).slot c.maxItems = Slot.atReset (BitVec.ofNat 8 c.maxItems) := by
  simp [State.slot, State.resetWith]

@[simp] theorem State.pdu_resetWith (c : Params) (k : Nat) : (State.resetWith c).pdu k = PduState.atReset := by
  by_cases hk : k < c.schemas.length <;> simp [State.pdu, State.resetWith, hk]

/-- Settles O10, from the entries, cells and PDUs of the reset state. -/
theorem resetValues : Obligations.ResetValues := by
  intro c hwf
  have hle := Params.maxItems_le hwf
  refine ⟨rfl, rfl, rfl, rfl, rfl, fun t i _ => ?_, fun j hj => ?_, ?_, fun k _ => State.pdu_resetWith c k, rfl, rfl⟩
  · rw [State.entry_resetWith]
    exact toNat_ofNat_first hle
  · rw [State.slot_resetWith_lt hj]
    rfl
  · rw [State.slot_resetWith_sentinel]
    exact toNat_ofNat_byte hle

/-- Settles O20: the reset map is empty. -/
theorem resetMeetsTheMapInvariants : Obligations.ResetMeetsTheMapInvariants := by
  intro c hwf
  have hshape : (State.resetWith c).shapeOk := by simp [State.shapeOk, State.resetWith]
  have hsen : (State.resetWith c).sentinelOk := congrArg Slot.next (State.slot_resetWith_sentinel c)
  refine State.mapInv_of_empty hwf hshape hsen (fun t e he => ?_) fun j hj => ?_
  · exact State.isEmpty_of_first hwf (by rw [State.mem_table_resetWith he]; rfl)
  · exact congrArg Slot.next (State.slot_resetWith_lt hj)

/-! ## The counters -/

theorem countersOk_iff {sc : Schema} {d : PduState} :
    countersOk sc d = true ↔
      (sc.counter? = none → d.txc = 0#32 ∧ d.rxc = 0#32) ∧
        ∀ e, sc.counter? = some e → d.txc.toNat < e.modulus.toNat := by
  unfold countersOk
  cases sc.counter? <;> simp

theorem Params.schema_wf {c : Params} (h : c.wf = true) {sc : Schema} {k : Nat} (hsc : c.schemas[k]? = some sc) :
    sc.wf = true := by
  obtain ⟨-, -, -, -, -, -, -, hall⟩ := Params.wf_iff.mp h
  exact hall sc (List.mem_of_getElem? hsc)

theorem countersOk_atReset {sc : Schema} (hwf : sc.wf = true) : countersOk sc PduState.atReset = true := by
  refine countersOk_iff.mpr ⟨fun _ => ⟨rfl, rfl⟩, fun e he => ?_⟩
  obtain ⟨hmod, -⟩ := Schema.elems_of_counter?_eq_some hwf he
  exact hmod

/-- Settles O22: at reset every counter is 0 and no reason is held. -/
theorem resetMeetsPduAndFaultInvariants : Obligations.ResetMeetsPduAndFaultInvariants := by
  refine fun c hwf => ⟨⟨hwf, List.length_replicate, fun k _ sc hsc => ?_⟩, rfl⟩
  rw [State.pdu_resetWith]
  exact countersOk_atReset (Params.schema_wf hwf hsc)

theorem countersOk_packed {s : State} {k : Byte} {sc : Schema} (hwf : sc.wf = true)
    (h : countersOk sc (s.pdu k.toNat) = true) :
    countersOk sc { s.pdu k.toNat with txc := (packElements s k sc).txc } = true := by
  obtain ⟨hnone, -⟩ := countersOk_iff.mp h
  refine countersOk_iff.mpr ⟨fun hc => ?_, fun e he => ?_⟩
  · rw [packElements_txc_of_none s k hc]
    exact hnone hc
  · rw [packElements_txc_of_some s k hwf he]
    obtain ⟨hmod, -⟩ := Schema.elems_of_counter?_eq_some hwf he
    exact nextCount_lt hmod

theorem countersOk_unpacked {sc : Schema} {d : PduState} {p : Payload} {rxc : Word} {ok : Bool}
    (hrxc : rxc = receivedCount p sc d.rxc ∨ rxc = d.rxc) (h : countersOk sc d = true) :
    countersOk sc { d with rxc := rxc, crcOk := ok } = true := by
  obtain ⟨hnone, hsome⟩ := countersOk_iff.mp h
  refine countersOk_iff.mpr ⟨fun hc => ?_, hsome⟩
  have hsame : rxc = d.rxc := hrxc.elim (fun hr => hr.trans (receivedCount_of_none hc p _)) id
  exact hsame ▸ hnone hc

theorem State.pduInv_congr {s t : State} (hc : t.cfg = s.cfg) (hp : t.pdus = s.pdus) (h : s.PduInv) : t.PduInv := by
  unfold State.PduInv State.pdu
  rw [hc, hp]
  exact h

theorem exec_keeps_pduInv {i : Instr} {s t : State} (hs : s.PduInv) (h : exec i s = .next t) : t.PduInv := by
  obtain ⟨hcfg, -⟩ := commandsKeepTheEnvironment i s t h
  have heff := exec_pduEffect h
  obtain ⟨hwf, hlen, hk⟩ := hs
  refine ⟨hcfg ▸ hwf, by rw [heff.length_eq, hcfg, hlen], ?_⟩
  rw [hcfg]
  intro c hc sc hsc
  cases heff with
  | same h =>
    rw [State.pdu_of_pdus_eq h]
    exact hk c hc sc hsc
  | packed k sc' hi hsc' h =>
    rcases State.pdu_of_pdus_set h c with hd | ⟨rfl, hd⟩ <;> rw [hd]
    · exact hk c hc sc hsc
    · cases hsc'.symm.trans hsc
      exact countersOk_packed (Params.schema_wf hwf hsc) (hk _ hc sc hsc)
  | unpacked k p sc' rxc ok hi hsc' hrxc h =>
    rcases State.pdu_of_pdus_set h c with hd | ⟨rfl, hd⟩ <;> rw [hd]
    · exact hk c hc sc hsc
    · cases hsc'.symm.trans hsc
      exact countersOk_unpacked hrxc (hk _ hc sc hsc)

/-! ## Every step -/

/-- Every step keeps a predicate that the inputs, the level of `save_busy` and `RC` do not touch, that holds after a reset
and that every command keeps. -/
theorem step_keeps {P : State → Prop} {s t : State} (hs : P s) (h : step s = .next t)
    (hinputs : ∀ (s : State) l, P s → P (s.setInputs l)) (hbusy : ∀ (s : State) b, P s → P (s.setSaveBusy b))
    (hrc : ∀ (s : State) v, P s → P (s.setRc v)) (hreset : ∀ s : State, s.cfg.wf = true → P s.afterReset)
    (hexec : ∀ i (s t : State), P s → exec i s = .next t → P t) : P t := by
  obtain ⟨hwf, ⟨-, rfl⟩ | ⟨level, rest, -, rfl⟩ | ⟨rest, -, rfl⟩ |
    ⟨cr, rest, -, -, ⟨op, -, rfl⟩ | ⟨i, -, hi⟩⟩⟩ := step_cases h
  · exact hs
  · exact hbusy _ _ (hinputs _ _ hs)
  · exact hreset _ hwf
  · exact hrc _ _ (hinputs _ _ hs)
  · exact hexec i _ t (hinputs _ _ hs) hi

theorem exec_keeps_pfInv {i : Instr} {s t : State} (hs : s.PfInv) (h : exec i s = .next t) : t.PfInv := by
  obtain ⟨-, r, rfl⟩ | ⟨hpf, hreason⟩ := exec_fault_cases h
  · rfl
  · unfold State.PfInv
    rw [hpf, hreason]
    exact hs

/-- Settles O23: each kind of step keeps both invariants. -/
theorem stepKeepsPduAndFaultInvariants : Obligations.StepKeepsPduAndFaultInvariants := by
  refine ⟨fun s t hs h => ?_, fun s t hs h => ?_⟩
  · refine step_keeps hs h (fun _ _ => id) (fun _ _ => id) (fun _ _ => id) (fun s hwf => ?_)
      fun i s t => exec_keeps_pduInv
    exact State.pduInv_congr (s := State.resetWith s.cfg) rfl rfl (resetMeetsPduAndFaultInvariants _ hwf).1
  · exact step_keeps hs h (fun _ _ => id) (fun _ _ => id) (fun _ _ => id) (fun _ _ => rfl)
      fun i s t => exec_keeps_pfInv

/-- R31 speaks of the configuration, the map and the number of PDUs alone. -/
theorem State.mapInv_congr {s u : State} (hc : u.cfg = s.cfg) (hm : sameMap s u)
    (hd : u.pdus.length = s.pdus.length) (h : s.MapInv) : u.MapInv := by
  obtain ⟨htx, hrx, hp⟩ := hm
  have ht : ∀ t, u.table t = s.table t := by
    intro t
    cases t
    · exact htx
    · exact hrx
  have hon := State.mapOn_of_mapInv h .tx
  have hlen : s.SameLengths u := ⟨hc, by rw [htx], by rw [hrx], by rw [hp], hd⟩
  exact State.MapOn.mapInv ⟨hc ▸ hon.wf, hlen.shapeOk hon.shape,
    State.sentinelOk_congr hc (by rw [State.slot_of_pool_eq hp]) hon.sentinel, hon.front.congr hc (ht _),
    hon.otherFront.congr hc (ht _), hon.lists.congr hc hp⟩

theorem State.mapInv_setRc {s : State} (h : s.MapInv) (v : Word) : (s.setRc v).MapInv :=
  State.mapInv_congr (s := s) rfl ⟨rfl, rfl, rfl⟩ rfl h

theorem State.mapInv_raise {s : State} (h : s.MapInv) (r : PfReason) : (s.raise r).MapInv :=
  State.mapInv_congr (s := s) rfl ⟨rfl, rfl, rfl⟩ rfl h

theorem State.mapInv_emit {s : State} (h : s.MapInv) (es : List Event) : (s.emit es).MapInv :=
  State.mapInv_congr (s := s) rfl ⟨rfl, rfl, rfl⟩ rfl h

theorem State.mapInv_setInputs {s : State} (h : s.MapInv) (l : List Input) : (s.setInputs l).MapInv :=
  State.mapInv_congr (s := s) rfl ⟨rfl, rfl, rfl⟩ rfl h

theorem State.mapInv_setSaveBusy {s : State} (h : s.MapInv) (b : Bool) : (s.setSaveBusy b).MapInv :=
  State.mapInv_congr (s := s) rfl ⟨rfl, rfl, rfl⟩ rfl h

/-- A binding command keeps R31. -/
theorem exec_addCmd_keeps_mapInv {s u : State} {t : Table} {b : Binding} (hs : s.MapInv)
    (h : exec (addCmd t b) s = .next u) : u.MapInv := by
  cases ha : s.add t b with
  | fault r =>
    cases (exec_addCmd_of_fault ha).symm.trans h
    exact State.mapInv_raise hs r
  | error code =>
    cases (exec_addCmd_of_error ha).symm.trans h
    exact State.mapInv_setRc hs code
  | done w =>
    cases (exec_addCmd_of_done ha).symm.trans h
    exact State.mapInv_emit (State.mapInv_setRc (State.mapInv_add hs ha) _) _

theorem execMapRm_keeps_mapInv {s t : State} {param : BitVec 16} (hs : s.MapInv) (h : execMapRm param s = .next t) :
    t.MapInv := by
  unfold execMapRm at h
  split at h
  · cases h
    exact State.mapInv_raise hs _
  · split at h
    · cases h
      exact State.mapInv_setRc hs _
    · next pl hpl =>
      cases h
      exact State.mapInv_setRc (State.mapInv_removeSlot hs hpl) _

theorem execMapClr_keeps_mapInv {s t : State} (hs : s.MapInv) (h : execMapClr s = .next t) : t.MapInv := by
  unfold execMapClr at h
  split at h <;> cases h
  · exact State.mapInv_raise hs _
  · exact State.mapInv_setRc (State.mapInv_clearMap hs) _

theorem exec_keeps_mapInv {i : Instr} {s t : State} (hs : s.MapInv) (h : exec i s = .next t) : t.MapInv := by
  cases hm : Mutates i with
  | false =>
    obtain ⟨hcfg, -⟩ := commandsKeepTheEnvironment i s t h
    exact State.mapInv_congr hcfg (exec_report hm h).sameMap (exec_pduEffect h).length_eq hs
  | true =>
    cases i with
    | mapAddrx b => exact exec_addCmd_keeps_mapInv (t := .rx) hs h
    | mapAddtx b => exact exec_addCmd_keeps_mapInv (t := .tx) hs h
    | mapRm param => exact execMapRm_keeps_mapInv hs h
    | mapClr => exact execMapClr_keeps_mapInv hs h
    | _ => cases hm

/-- Settles O21: a reset empties the map, and every command keeps R31. -/
theorem stepKeepsTheMapInvariants : Obligations.StepKeepsTheMapInvariants := by
  intro s t hs h
  refine step_keeps hs h (fun _ l h => State.mapInv_setInputs h l) (fun _ b h => State.mapInv_setSaveBusy h b)
    (fun _ v h => State.mapInv_setRc h v) (fun s hwf => ?_) fun i s t => exec_keeps_mapInv
  exact State.mapInv_congr (s := State.resetWith s.cfg) rfl ⟨rfl, rfl, rfl⟩ rfl (resetMeetsTheMapInvariants _ hwf)

/-! ## The live cells counted -/

theorem State.pool_eq_map {s : State} {n : Nat} (h : s.pool.length = n) : s.pool = (List.range n).map s.slot := by
  refine List.ext_getElem (by simp [h]) fun j hj _ => ?_
  simp [State.slot, hj]

/-- Settles O24: the cells of the lists are the allocatable cells that are not free, and the sentinel is not free. -/
theorem liveSlotsAreCounted : Obligations.LiveSlotsAreCounted := by
  intro s h
  have hon := State.mapOn_of_mapInv h .tx
  have hsen : (s.slot s.cfg.maxItems).next ≠ itemUnset := hon.sentinel ▸ State.endLink_ne_itemUnset hon.wf
  have hperm : s.mapped.Perm ((List.range s.cfg.maxItems).filter fun j => decide ((s.slot j).next ≠ itemUnset)) := by
    refine (List.perm_ext_iff_of_nodup hon.lists.cells.nodup (List.nodup_range.filter _)).mpr fun j => ?_
    rw [List.mem_filter, List.mem_range, decide_eq_true_eq]
    exact ⟨fun hj => ⟨State.mapped_lt hj, (hon.lists.cells.mem_iff j (State.mapped_lt hj)).mp hj⟩,
      fun ⟨hlt, hj⟩ => (hon.lists.cells.mem_iff j hlt).mpr hj⟩
  rw [hperm.length_eq, State.pool_eq_map hon.pool_length, List.filter_map, List.length_map, List.range_succ,
    List.filter_append, List.length_append]
  have hlast : List.filter ((fun c : Slot => decide (c.next ≠ 0xFF#8)) ∘ s.slot) [s.cfg.maxItems] = [s.cfg.maxItems] :=
    List.filter_cons_of_pos (decide_eq_true hsen)
  rw [hlast]
  rfl

end Sys2Proof.Machine
end

section
/-! What a step runs, and what a command reads (spec/20_memory.md R64, R66). -/

namespace Sys2Proof.Machine

/-- Settles O15: a command that does not mutate the map only reports. -/
theorem onlyMutationsChangeTheMap : Obligations.OnlyMutationsChangeTheMap := by
  intro i s t hm h
  exact (exec_report hm h).sameMap

/-! ## The command a step runs -/

theorem State.accept_of_command {s : State} {cr : Record} {rest : List Input} (hwf : s.cfg.wf = true)
    (hpf : s.pf = false) (hi : s.inputs = .command cr :: rest) :
    s.accept = (s.setInputs rest).takeCommand cr := by
  simp [State.accept, hwf, hpf, hi]

theorem State.takeCommand_of_decode {s : State} {cr : Record} {i : Instr} (hd : decode cr = .command i) :
    s.takeCommand cr = .run i s := by
  simp [State.takeCommand, hd]

theorem step_of_run {s t : State} {i : Instr} (h : s.accept = .run i t) : step s = exec i t := by
  unfold step
  rw [h]

/-- Settles O6: the record is accepted, decodes to the command, and the step runs it. -/
theorem stepRunsTheDecodedCommand : Obligations.StepRunsTheDecodedCommand := by
  intro s cr rest i hwf hpf hi hd
  have haccept : s.accept = .run i (s.setInputs rest) :=
    (State.accept_of_command hwf hpf hi).trans (State.takeCommand_of_decode hd)
  exact step_of_run haccept

/-! ## Commands that read only their operands -/

/-- R114: FX.ENC by the value its conversion gives, whichever draw gave it. -/
theorem exec_fxEnc_of_raw {p : Payload} {f : FieldRef} {val gain : F32} {ofs : Byte} {s : State} {raw : Word}
    (hraw : c4Enc (s.oobDraw 0) val gain ofs f.width = raw) :
    exec (.fxEnc p f val gain ofs) s =
      .next { s with rp := putOr p f raw, rv := raw, rc := 0#32, draws := s.draws + 1 } := by
  rw [← hraw]
  rfl

/-- Settles O19: the results are written in the operands; FX.ENC reads the state through its one draw alone, which the
conversion ignores (`c4Enc_draw`) or the count of draws fixes. -/
theorem pureCommandsRepeat : Obligations.PureCommandsRepeat := by
  refine ⟨?_, ?_, ?_, ?_, ?_, ?_, ?_⟩
  · intro p f sg
    exact ⟨BitVec.ofInt 32 (ival (getField p f) f.width sg), fun _ => rfl⟩
  · intro p f v
    exact ⟨putOr p f v, fun _ => rfl⟩
  · intro p f v
    exact ⟨insertField p f v, fun _ => rfl⟩
  · intro p f sg gain ofs
    exact ⟨c4Dec (ival (getField p f) f.width sg) ofs gain, BitVec.ofInt 32 (ival (getField p f) f.width sg),
      fun _ => rfl⟩
  · intro p init poly
    exact ⟨(crc8Default p init poly).setWidth 32, fun _ => rfl⟩
  · intro p f val gain ofs hdraw
    have hraw (s : State) : c4Enc (s.oobDraw 0) val gain ofs f.width = c4Enc 0#32 val gain ofs f.width :=
      c4Enc_draw f.width (hdraw _ _)
    exact ⟨_, _, fun s => ⟨_, exec_fxEnc_of_raw (hraw s)⟩⟩
  · intro p f val gain ofs m
    refine ⟨putOr p f (c4Enc (Config.oobDraw m) val gain ofs f.width),
      c4Enc (Config.oobDraw m) val gain ofs f.width, m + 1, fun s hm => ?_⟩
    subst hm
    exact exec_fxEnc_of_raw rfl

end Sys2Proof.Machine
end

section
/-! The command record read and written: `decode` as an opcode and operands read from the record, each format's words
read back, and a record cut down to the bits a command reads (spec/30_encoding.md R80 to R87). -/

namespace Sys2Proof

open Machine
open BitVec (allOnes)

/-! ## The decoder as opcode and operands -/

/-- The command of the same opcode with the operands a record gives it. -/
def Instr.reread (i : Instr) (cr : Record) : Instr :=
  match i with
  | .fxGet _ _ _ => .fxGet (bitsOf cr 64 64) (fieldOf cr) (bitOf cr 20)
  | .fxOr _ _ _ => .fxOr (bitsOf cr 64 64) (fieldOf cr) (bitsOf cr 32 32)
  | .fxIns _ _ _ => .fxIns (bitsOf cr 64 64) (fieldOf cr) (bitsOf cr 32 32)
  | .fxDec _ _ _ _ _ => .fxDec (bitsOf cr 64 64) (fieldOf cr) (bitOf cr 20) (bitsOf cr 128 32) (bitsOf cr 160 8)
  | .fxEnc _ _ _ _ _ =>
    .fxEnc (bitsOf cr 64 64) (fieldOf cr) (bitsOf cr 32 32) (bitsOf cr 128 32) (bitsOf cr 160 8)
  | .frameRx _ _ _ => .frameRx (bitsOf cr 32 32) (bitsOf cr 64 64) (bitsOf cr 8 4)
  | .frameTxall => .frameTxall
  | .mapAddrx _ => .mapAddrx (bindingOf cr)
  | .mapAddtx _ => .mapAddtx (bindingOf cr)
  | .mapRm _ => .mapRm (bitsOf cr 64 16)
  | .mapClr => .mapClr
  | .mapRereg => .mapRereg
  | .mapRde _ _ => .mapRde (tableOf cr) (bitsOf cr 80 16)
  | .mapRds _ => .mapRds (bitsOf cr 80 16)
  | .pduPack _ => .pduPack (bitsOf cr 8 8)
  | .pduUnpack _ _ => .pduUnpack (bitsOf cr 8 8) (bitsOf cr 64 64)
  | .pduStat _ => .pduStat (bitsOf cr 8 8)
  | .crc8Calc _ _ _ => .crc8Calc (bitsOf cr 64 64) (bitsOf cr 16 8) (bitsOf cr 24 8)

theorem decode_of_opcode {cr : Record} {i : Instr} (h : bitsOf cr 0 8 = i.opcode) :
    decode cr = .command (i.reread cr) := by
  unfold decode
  rw [h]
  cases i <;> rfl

/-- A record decodes to a command exactly when it carries the command's opcode and operands. -/
theorem decode_eq_command_iff {cr : Record} {i : Instr} :
    decode cr = .command i ↔ bitsOf cr 0 8 = i.opcode ∧ i.reread cr = i := by
  constructor
  · intro h
    unfold decode at h
    dsimp only at h
    iterate 18
      obtain ⟨hop, hi⟩ | ⟨-, h⟩ := ite_eq_iff.mp h
      · cases hi
        exact ⟨hop, rfl⟩
    cases h
  · rintro ⟨hop, hi⟩
    rw [decode_of_opcode hop, hi]

theorem FieldRef.wf_iff {f : FieldRef} : f.wf = true ↔ f.pos ≤ 63 ∧ 1 ≤ f.width ∧ f.width ≤ 32 := by
  simp [FieldRef.wf, and_assoc]

/-- R81, R85: `pos` and `wm1 + 1` are in range by the widths of their fields. -/
theorem fieldOf_wf (cr : Record) : (fieldOf cr).wf = true := by
  have hpos : (bitsOf cr 8 6).toNat < 64 := BitVec.isLt _
  have hwm1 : (bitsOf cr 14 5).toNat < 32 := BitVec.isLt _
  exact FieldRef.wf_iff.mpr ⟨Nat.le_of_lt_succ hpos, Nat.le_add_left 1 _, hwm1⟩

theorem wf_reread (i : Instr) (cr : Record) : (i.reread cr).wf = true := by
  cases i with
  | fxGet | fxOr | fxIns | fxDec | fxEnc => exact fieldOf_wf cr
  | _ => rfl

/-! ## One bit -/

theorem bitOf_eq (cr : Record) (i : Nat) : bitOf cr i = (bitsOf cr i 1 == 1#1) := BitVec.getLsbD_eq_extractLsb' cr i

@[simp] theorem oneBit_beq (b : Bool) : (oneBit b == 1#1) = b := by cases b <;> rfl

theorem oneBit_and (b c : Bool) : oneBit (b && c) = oneBit b &&& oneBit c := BitVec.ofBool_and_ofBool.symm

theorem oneBit_bitOf (cr : Record) (i : Nat) : oneBit (bitOf cr i) = bitsOf cr i 1 := by
  rw [bitOf_eq]
  generalize bitsOf cr i 1 = b
  revert b
  decide

/-! ## The words of a record, read back -/

@[simp] theorem bitsOf_recordOf_word0 (w2 w1 w0 : BitVec 64) {lo len : Nat} (h : lo + len ≤ 64) :
    bitsOf (recordOf w2 w1 w0) lo len = w0.extractLsb' lo len :=
  BitVec.extractLsb'_append_eq_of_add_le h

@[simp] theorem bitsOf_recordOf_word1 (w2 w1 w0 : BitVec 64) {lo len : Nat} (hlo : 64 ≤ lo) (h : lo + len ≤ 128) :
    bitsOf (recordOf w2 w1 w0) lo len = w1.extractLsb' (lo - 64) len :=
  (BitVec.extractLsb'_append_eq_of_le hlo).trans (BitVec.extractLsb'_append_eq_of_add_le (by omega))

@[simp] theorem bitsOf_recordOf_word2 (w2 w1 w0 : BitVec 64) {lo len : Nat} (hlo : 128 ≤ lo) :
    bitsOf (recordOf w2 w1 w0) lo len = w2.extractLsb' (lo - 128) len := by
  have h1 : bitsOf (recordOf w2 w1 w0) lo len = (w2 ++ w1).extractLsb' (lo - 64) len :=
    BitVec.extractLsb'_append_eq_of_le (by omega)
  rw [h1, BitVec.extractLsb'_append_eq_of_le (by omega), Nat.sub_sub]

/-- Format FX (R81). -/
@[simp] theorem fxWord0_read (op : Byte) (f : FieldRef) (sg : Bool) (val : Word) :
    (fxWord0 op f sg val).extractLsb' 8 6 = BitVec.ofNat 6 f.pos ∧
      (fxWord0 op f sg val).extractLsb' 14 5 = BitVec.ofNat 5 (f.width - 1) ∧
      (fxWord0 op f sg val).extractLsb' 19 1 = oneBit f.be ∧
      (fxWord0 op f sg val).extractLsb' 20 1 = oneBit sg ∧
      (fxWord0 op f sg val).extractLsb' 32 32 = val := by
  simp (disch := omega) only [fxWord0, BitVec.extractLsb'_append_eq_of_le, BitVec.extractLsb'_append_eq_of_add_le,
    Nat.reduceSub, BitVec.extractLsb'_eq_self, and_self]

/-- `W2` of formats FX and MP (R81, R82). -/
@[simp] theorem scaleWord2_read (gain : F32) (ofs : Byte) :
    (scaleWord2 gain ofs).extractLsb' 0 32 = gain ∧ (scaleWord2 gain ofs).extractLsb' 32 8 = ofs := by
  simp (disch := omega) only [scaleWord2, BitVec.extractLsb'_append_eq_of_le, BitVec.extractLsb'_append_eq_of_add_le,
    Nat.reduceSub, BitVec.extractLsb'_eq_self, and_self]

/-- `W0` of format MP (R82). -/
@[simp] theorem mpWord0_read (op : Byte) (id : Word) (sg : Bool) (nb bpos : Byte) :
    (mpWord0 op id sg nb bpos).extractLsb' 8 8 = bpos ∧
      (mpWord0 op id sg nb bpos).extractLsb' 16 8 = nb ∧
      (mpWord0 op id sg nb bpos).extractLsb' 24 1 = oneBit sg ∧
      (mpWord0 op id sg nb bpos).extractLsb' 32 32 = id := by
  simp (disch := omega) only [mpWord0, BitVec.extractLsb'_append_eq_of_le, BitVec.extractLsb'_append_eq_of_add_le,
    Nat.reduceSub, BitVec.extractLsb'_eq_self, and_self]

/-- `W1` of format MP (R82). -/
@[simp] theorem mpWord1_read (tbl : Table) (idx param : BitVec 16) :
    (mpWord1 tbl idx param).extractLsb' 0 16 = param ∧
      (mpWord1 tbl idx param).extractLsb' 16 16 = idx ∧
      (mpWord1 tbl idx param).extractLsb' 32 1 = oneBit (decide (tbl = .rx)) := by
  simp (disch := omega) only [mpWord1, BitVec.extractLsb'_append_eq_of_le, BitVec.extractLsb'_append_eq_of_add_le,
    Nat.reduceSub, BitVec.extractLsb'_eq_self, and_self]

/-- Format FR (R83). -/
@[simp] theorem frWord0_read (op : Byte) (id : Word) (dlc : BitVec 4) :
    (frWord0 op id dlc).extractLsb' 8 4 = dlc ∧ (frWord0 op id dlc).extractLsb' 32 32 = id := by
  simp (disch := omega) only [frWord0, BitVec.extractLsb'_append_eq_of_le, BitVec.extractLsb'_append_eq_of_add_le,
    Nat.reduceSub, BitVec.extractLsb'_eq_self, and_self]

/-- Format PD (R84). -/
@[simp] theorem pdWord0_read (op k init poly : Byte) :
    (pdWord0 op k init poly).extractLsb' 8 8 = k ∧
      (pdWord0 op k init poly).extractLsb' 16 8 = init ∧
      (pdWord0 op k init poly).extractLsb' 24 8 = poly := by
  simp (disch := omega) only [pdWord0, BitVec.extractLsb'_append_eq_of_le, BitVec.extractLsb'_append_eq_of_add_le,
    Nat.reduceSub, BitVec.extractLsb'_eq_self, and_self]

theorem fieldOf_fxWord0 (w2 w1 : BitVec 64) (op : Byte) {f : FieldRef} (hf : f.wf = true) (sg : Bool) (val : Word) :
    fieldOf (recordOf w2 w1 (fxWord0 op f sg val)) = f := by
  obtain ⟨hpos, hmin, hmax⟩ := FieldRef.wf_iff.mp hf
  have hp : f.pos % 64 = f.pos := Nat.mod_eq_of_lt (by omega)
  have hw : (f.width - 1) % 32 + 1 = f.width := by omega
  simp [fieldOf, bitOf_eq, hp, hw]

theorem bindingOf_encodeBinding (op : Byte) (b : Binding) : bindingOf (encodeBinding op b) = b := by
  simp [bindingOf, encodeBinding, bitOf_eq]

theorem tableOf_mpWord1 (w2 w0 : BitVec 64) (tbl : Table) (idx param : BitVec 16) :
    tableOf (recordOf w2 (mpWord1 tbl idx param) w0) = tbl := by
  cases tbl <;> simp [tableOf, bitOf_eq]

/-- The record of a well-formed command gives its operands back. -/
theorem reread_encode {i : Instr} (h : i.wf = true) : i.reread (encode i) = i := by
  cases i with
  | fxGet | fxOr | fxIns | fxDec | fxEnc =>
    simp [Instr.reread, encode, bitOf_eq, fieldOf_fxWord0 _ _ _ h]
  | mapAddrx b | mapAddtx b => simp [Instr.reread, encode, bindingOf_encodeBinding]
  | mapRde => simp [Instr.reread, encode, tableOf_mpWord1]
  | _ => simp [Instr.reread, encode]

theorem opcode_encode (i : Instr) : bitsOf (encode i) 0 8 = i.opcode := by
  cases i <;> exact Laws.OpcodeByte.low_byte _ _ _ _

/-- Settles O1: the record carries the command's opcode (`opcode_encode`) and gives its operands back
(`reread_encode`). -/
theorem decodeOfEncode : Obligations.DecodeOfEncode := fun i hwf =>
  decode_eq_command_iff.mpr ⟨opcode_encode i, reread_encode hwf⟩

/-! ## The bits a command reads -/

/-- A field with every operand bit set. -/
def widestField : FieldRef := { pos := 63, width := 32, be := true }

/-- The bits a command reads, laid out as `encode` lays out its record: every field it reads holds ones. -/
def usedFields : Instr → Record
  | .fxGet _ _ _ => recordOf 0#64 (allOnes 64) (fxWord0 (allOnes 8) widestField true 0#32)
  | .fxOr _ _ _ | .fxIns _ _ _ => recordOf 0#64 (allOnes 64) (fxWord0 (allOnes 8) widestField false (allOnes 32))
  | .fxDec _ _ _ _ _ =>
    recordOf (scaleWord2 (allOnes 32) (allOnes 8)) (allOnes 64) (fxWord0 (allOnes 8) widestField true 0#32)
  | .fxEnc _ _ _ _ _ =>
    recordOf (scaleWord2 (allOnes 32) (allOnes 8)) (allOnes 64) (fxWord0 (allOnes 8) widestField false (allOnes 32))
  | .frameRx _ _ _ => recordOf 0#64 (allOnes 64) (frWord0 (allOnes 8) (allOnes 32) (allOnes 4))
  | .frameTxall => recordOf 0#64 0#64 (frWord0 (allOnes 8) 0#32 0#4)
  | .mapAddrx _ | .mapAddtx _ =>
    recordOf (scaleWord2 (allOnes 32) (allOnes 8)) (mpWord1 .tx 0#16 (allOnes 16))
      (mpWord0 (allOnes 8) (allOnes 32) true (allOnes 8) (allOnes 8))
  | .mapRm _ => recordOf 0#64 (mpWord1 .tx 0#16 (allOnes 16)) (mpWord0 (allOnes 8) 0#32 false 0#8 0#8)
  | .mapClr | .mapRereg => recordOf 0#64 0#64 (mpWord0 (allOnes 8) 0#32 false 0#8 0#8)
  | .mapRde _ _ => recordOf 0#64 (mpWord1 .rx (allOnes 16) 0#16) (mpWord0 (allOnes 8) 0#32 false 0#8 0#8)
  | .mapRds _ => recordOf 0#64 (mpWord1 .tx (allOnes 16) 0#16) (mpWord0 (allOnes 8) 0#32 false 0#8 0#8)
  | .pduPack _ | .pduStat _ => recordOf 0#64 0#64 (pdWord0 (allOnes 8) (allOnes 8) 0#8 0#8)
  | .pduUnpack _ _ => recordOf 0#64 (allOnes 64) (pdWord0 (allOnes 8) (allOnes 8) 0#8 0#8)
  | .crc8Calc _ _ _ => recordOf 0#64 (allOnes 64) (pdWord0 (allOnes 8) 0#8 (allOnes 8) (allOnes 8))

theorem usedBits_eq_usedFields (i : Instr) : usedBits i = usedFields i := by
  cases i <;> rfl

theorem bitsOf_and_append (cr : Record) (lo : Nat) {n m : Nat} (a : BitVec n) (b : BitVec m) :
    bitsOf cr lo (n + m) &&& (a ++ b) = (bitsOf cr (lo + m) n &&& a) ++ (bitsOf cr lo m &&& b) := by
  rw [← BitVec.and_append, bitsOf, bitsOf, bitsOf, BitVec.extractLsb'_append_extractLsb'_eq_extractLsb' rfl]

theorem and_recordOf (cr : Record) (w2 w1 w0 : BitVec 64) :
    cr &&& recordOf w2 w1 w0 =
      recordOf (bitsOf cr 128 64 &&& w2) (bitsOf cr 64 64 &&& w1) (bitsOf cr 0 64 &&& w0) := by
  have h : bitsOf cr 0 192 = cr := BitVec.extractLsb'_eq_self
  calc cr &&& recordOf w2 w1 w0
    _ = bitsOf cr 0 (64 + 64 + 64) &&& ((w2 ++ w1) ++ w0) := by rw [h]; rfl
    _ = _ := by rw [bitsOf_and_append, bitsOf_and_append]; rfl

theorem and_fxWord0 (cr : Record) (sg : Bool) (val : Word) :
    bitsOf cr 0 64 &&& fxWord0 (allOnes 8) widestField sg val =
      fxWord0 (bitsOf cr 0 8) (fieldOf cr) (bitOf cr 20 && sg) (bitsOf cr 32 32 &&& val) := by
  calc bitsOf cr 0 64 &&& fxWord0 (allOnes 8) widestField sg val
    _ = bitsOf cr 0 (32 + 11 + 1 + 1 + 5 + 6 + 8) &&&
        (val ++ 0#11 ++ oneBit sg ++ allOnes 1 ++ allOnes 5 ++ allOnes 6 ++ allOnes 8) := rfl
    _ = _ := by
      iterate 6 rw [bitsOf_and_append]
      simp [fxWord0, fieldOf, oneBit_bitOf, oneBit_and, -BitVec.reduceAllOnes]

theorem and_scaleWord2 (cr : Record) (gain : F32) (ofs : Byte) :
    bitsOf cr 128 64 &&& scaleWord2 gain ofs = scaleWord2 (bitsOf cr 128 32 &&& gain) (bitsOf cr 160 8 &&& ofs) := by
  calc bitsOf cr 128 64 &&& scaleWord2 gain ofs
    _ = bitsOf cr 128 (24 + 8 + 32) &&& (0#24 ++ ofs ++ gain) := rfl
    _ = _ := by
      iterate 2 rw [bitsOf_and_append]
      simp [scaleWord2]

theorem and_mpWord0 (cr : Record) (id : Word) (sg : Bool) (nb bpos : Byte) :
    bitsOf cr 0 64 &&& mpWord0 (allOnes 8) id sg nb bpos =
      mpWord0 (bitsOf cr 0 8) (bitsOf cr 32 32 &&& id) (bitOf cr 24 && sg) (bitsOf cr 16 8 &&& nb)
        (bitsOf cr 8 8 &&& bpos) := by
  calc bitsOf cr 0 64 &&& mpWord0 (allOnes 8) id sg nb bpos
    _ = bitsOf cr 0 (32 + 7 + 1 + 8 + 8 + 8) &&& (id ++ 0#7 ++ oneBit sg ++ nb ++ bpos ++ allOnes 8) := rfl
    _ = _ := by
      iterate 5 rw [bitsOf_and_append]
      simp [mpWord0, oneBit_bitOf, oneBit_and, -BitVec.reduceAllOnes]

theorem tableOf_eq_rx_iff (cr : Record) : tableOf cr = .rx ↔ bitOf cr 96 = true := by
  simp [tableOf]

theorem and_mpWord1 (cr : Record) (tbl : Table) (idx param : BitVec 16) :
    bitsOf cr 64 64 &&& mpWord1 tbl idx param =
      mpWord1 (if tbl = .rx then tableOf cr else .tx) (bitsOf cr 80 16 &&& idx) (bitsOf cr 64 16 &&& param) := by
  have htbl : decide ((if tbl = .rx then tableOf cr else .tx) = .rx) = (bitOf cr 96 && decide (tbl = .rx)) := by
    cases tbl <;> simp [tableOf_eq_rx_iff]
  calc bitsOf cr 64 64 &&& mpWord1 tbl idx param
    _ = bitsOf cr 64 (31 + 1 + 16 + 16) &&& (0#31 ++ oneBit (decide (tbl = .rx)) ++ idx ++ param) := rfl
    _ = _ := by
      iterate 3 rw [bitsOf_and_append]
      simp [mpWord1, htbl, oneBit_bitOf, oneBit_and, -BitVec.reduceAllOnes]

theorem and_frWord0 (cr : Record) (id : Word) (dlc : BitVec 4) :
    bitsOf cr 0 64 &&& frWord0 (allOnes 8) id dlc =
      frWord0 (bitsOf cr 0 8) (bitsOf cr 32 32 &&& id) (bitsOf cr 8 4 &&& dlc) := by
  calc bitsOf cr 0 64 &&& frWord0 (allOnes 8) id dlc
    _ = bitsOf cr 0 (32 + 20 + 4 + 8) &&& (id ++ 0#20 ++ dlc ++ allOnes 8) := rfl
    _ = _ := by
      iterate 3 rw [bitsOf_and_append]
      simp [frWord0, -BitVec.reduceAllOnes]

theorem and_pdWord0 (cr : Record) (k init poly : Byte) :
    bitsOf cr 0 64 &&& pdWord0 (allOnes 8) k init poly =
      pdWord0 (bitsOf cr 0 8) (bitsOf cr 8 8 &&& k) (bitsOf cr 16 8 &&& init) (bitsOf cr 24 8 &&& poly) := by
  calc bitsOf cr 0 64 &&& pdWord0 (allOnes 8) k init poly
    _ = bitsOf cr 0 (32 + 8 + 8 + 8 + 8) &&& (0#32 ++ poly ++ init ++ k ++ allOnes 8) := rfl
    _ = _ := by
      iterate 4 rw [bitsOf_and_append]
      simp [pdWord0, -BitVec.reduceAllOnes]

/-- A record cut down to the bits a command reads is the record of the command read from it. -/
theorem and_usedBits {cr : Record} {i : Instr} (hop : bitsOf cr 0 8 = i.opcode) :
    cr &&& usedBits i = encode (i.reread cr) := by
  rw [usedBits_eq_usedFields]
  cases i with
  | fxGet | fxOr | fxIns | fxDec | fxEnc =>
    simp [usedFields, encode, Instr.reread, Instr.opcode, hop, and_recordOf, and_fxWord0, and_scaleWord2,
      -BitVec.reduceAllOnes]
  | frameRx | frameTxall =>
    simp [usedFields, encode, Instr.reread, Instr.opcode, hop, and_recordOf, and_frWord0, -BitVec.reduceAllOnes]
  | mapAddrx | mapAddtx =>
    simp [usedFields, encode, encodeBinding, Instr.reread, bindingOf, Instr.opcode, hop, and_recordOf, and_mpWord0,
      and_mpWord1, and_scaleWord2, -BitVec.reduceAllOnes]
  | mapRm | mapClr | mapRereg | mapRde | mapRds =>
    simp [usedFields, encode, Instr.reread, Instr.opcode, hop, and_recordOf, and_mpWord0, and_mpWord1,
      -BitVec.reduceAllOnes]
  | pduPack | pduUnpack | pduStat | crc8Calc =>
    simp [usedFields, encode, Instr.reread, Instr.opcode, hop, and_recordOf, and_pdWord0, -BitVec.reduceAllOnes]

/-- Settles O2: the command was read from the record (`decode_eq_command_iff`), which keeps its operands in range
(`wf_reread`) and the used bits in their places (`and_usedBits`). -/
theorem encodeOfDecode : Obligations.EncodeOfDecode := by
  intro cr i h
  obtain ⟨hop, hi⟩ := decode_eq_command_iff.mp h
  have hwf : (i.reread cr).wf = true := wf_reread i cr
  have henc : encode (i.reread cr) = cr &&& usedBits i := (and_usedBits hop).symm
  rw [hi] at hwf henc
  exact ⟨hwf, henc⟩

/-- R80: every command reads its opcode. -/
theorem opcode_and_usedBits (cr : Record) (i : Instr) : bitsOf (cr &&& usedBits i) 0 8 = bitsOf cr 0 8 := by
  have hused : bitsOf (usedBits i) 0 8 = allOnes 8 := by
    rw [usedBits_eq_usedFields]
    cases i <;> exact Laws.OpcodeByte.low_byte _ _ _ _
  calc bitsOf (cr &&& usedBits i) 0 8
    _ = bitsOf cr 0 8 &&& bitsOf (usedBits i) 0 8 := BitVec.extractLsb'_and
    _ = bitsOf cr 0 8 := by rw [hused, BitVec.and_allOnes]

/-- Settles O3: the two records carry one opcode, so the commands read from them encode to the same used bits, and a
command is fixed by its encoding (O1). -/
theorem unusedBitsAreIgnored : Obligations.UnusedBitsAreIgnored := by
  intro cr cr' i h hused
  obtain ⟨hop, hi⟩ := decode_eq_command_iff.mp h
  have hop' : bitsOf cr' 0 8 = i.opcode := by
    rw [← opcode_and_usedBits cr' i, ← hused, opcode_and_usedBits, hop]
  have hsame : encode (i.reread cr') = encode (i.reread cr) := by
    rw [← and_usedBits hop', ← and_usedBits hop, hused]
  calc decode cr'
    _ = .command (i.reread cr') := decode_of_opcode hop'
    _ = decode (encode (i.reread cr')) := (decodeOfEncode _ (wf_reread i cr')).symm
    _ = decode (encode (i.reread cr)) := by rw [hsame]
    _ = .command (i.reread cr) := decodeOfEncode _ (wf_reread i cr)
    _ = .command i := by rw [hi]

/-- Settles O5, by running the decoder on each record. -/
theorem specWordsDecode : Obligations.SpecWordsDecode := by
  refine ⟨?mapAddtx, ?fxGet, ?frameRx, ?crc8Calc⟩
  all_goals decide

end Sys2Proof
end

section
/-! The codec's fields bit by bit: the model's shifts put every value bit where R100 and R101 place it, so reading,
OR-depositing and inserting a field are said in bits of the payload (spec/40_codec.md R100 to R105). -/

namespace Sys2Proof.Machine

/-! ## A field in its view -/

/-- Where payload bit `q` stands in the view of a byte order, and where bit `q` of the view stands in the payload. -/
def viewBit (be : Bool) (q : Nat) : Nat := if be then sprime q else q

theorem sprime_lt (q : Nat) : sprime q < 64 := by
  unfold sprime
  omega

theorem sprime_sprime {q : Nat} (h : q < 64) : sprime (sprime q) = q := by
  unfold sprime
  omega

theorem viewBit_lt {q : Nat} (be : Bool) (h : q < 64) : viewBit be q < 64 := by
  cases be
  · exact h
  · exact sprime_lt q

theorem viewBit_viewBit {q : Nat} (be : Bool) (h : q < 64) : viewBit be (viewBit be q) = q := by
  cases be
  · rfl
  · exact sprime_sprime h

theorem getLsbD_fieldView (p : Payload) (be : Bool) {i : Nat} (h : i < 64) :
    (fieldView p be).getLsbD i = p.getLsbD (viewBit be i) := by
  cases be
  · rfl
  · exact getLsbD_bswap64 p h

/-- The view position of the field's bit 0, which may lie below bit 0: `p`, or `sprime(p) - n + 1` (R101). -/
def fieldLow (f : FieldRef) : Int := if f.be then (sprime f.pos : Int) + 1 - f.width else f.pos

/-- A payload moved up by `d` places, or down where `d` is negative; bits with no place are dropped. -/
def shiftBits (u : Payload) (d : Int) : Payload := if 0 ≤ d then u <<< d.toNat else u >>> (-d).toNat

theorem getLsbD_shiftBits (u : Payload) (d : Int) {i : Nat} (hi : i < 64) :
    (shiftBits u d).getLsbD i = (decide (d ≤ i) && u.getLsbD (i - d).toNat) := by
  unfold shiftBits
  split
  · have hidx : i - d.toNat = ((i : Int) - d).toNat := by omega
    have hle : (!decide (i < d.toNat)) = decide (d ≤ i) := by
      rw [← decide_not]
      exact decide_eq_decide.mpr (by omega)
    rw [BitVec.getLsbD_shiftLeft, decide_eq_true hi, Bool.true_and, hle, hidx]
  · have hidx : (-d).toNat + i = ((i : Int) - d).toNat := by omega
    rw [BitVec.getLsbD_ushiftRight, decide_eq_true (by omega : d ≤ i), Bool.true_and, hidx]

theorem shiftBits_up {u : Payload} {d : Int} {k : Nat} (h : d = k) : shiftBits u d = u <<< k := by
  subst h
  exact if_pos (by omega)

theorem shiftBits_down {u : Payload} {d : Int} {k : Nat} (h : d = -k) : shiftBits u d = u >>> k := by
  subst h
  cases k with
  | zero => exact u.shiftLeft_zero
  | succ k => exact if_neg (by omega)

theorem placeBits_eq_shiftBits (u : Payload) (f : FieldRef) : placeBits u f = shiftBits u (fieldLow f) := by
  unfold placeBits fieldLow
  split
  · split
    · exact (shiftBits_up (by omega)).symm
    · exact (shiftBits_down (by omega)).symm
  · exact (shiftBits_up rfl).symm

theorem fetchBits_eq_shiftBits (v : Payload) (f : FieldRef) : fetchBits v f = shiftBits v (-fieldLow f) := by
  unfold fetchBits fieldLow
  split
  · split
    · exact (shiftBits_down (by omega)).symm
    · exact (shiftBits_up (by omega)).symm
  · exact (shiftBits_down rfl).symm

/-! ## The bits of R100 and R101 -/

theorem beNext_sprime {i : Nat} (h0 : 0 < i) (h : i < 64) : beNext (sprime i) = sprime (i - 1) := by
  unfold beNext sprime
  split <;> omega

theorem le_beNext {q : Nat} (h : 64 ≤ q) : 64 ≤ beNext q := by
  unfold beNext
  split <;> omega

theorem beNext_iterate {pos k : Nat} (hpos : pos < 64) (hk : k ≤ sprime pos) :
    beNext^[k] pos = sprime (sprime pos - k) := by
  induction k with
  | zero => exact (sprime_sprime hpos).symm
  | succ k ih =>
    have hlt := sprime_lt pos
    rw [Function.iterate_succ_apply', ih (by omega), beNext_sprime (by omega) (by omega), Nat.sub_sub]

/-- A step below view position 0 leaves the payload for good. -/
theorem le_beNext_iterate {pos k : Nat} (hpos : pos < 64) (hk : sprime pos < k) : 64 ≤ beNext^[k] pos := by
  induction k, hk using Nat.le_induction with
  | base =>
    rw [Function.iterate_succ_apply', beNext_iterate hpos le_rfl, Nat.sub_self]
    decide
  | succ k hk ih =>
    rw [Function.iterate_succ_apply']
    exact le_beNext ih

/-- The payload has value bit `j` of the field exactly where the view has bit `fieldLow f + j`. -/
theorem bitPlace_eq_some_iff {f : FieldRef} (hf : f.wf = true) {j q : Nat} (hj : j < f.width) :
    bitPlace f j = some q ↔ q < 64 ∧ (viewBit f.be q : Int) = fieldLow f + j := by
  obtain ⟨hpos, -, -⟩ := FieldRef.wf_iff.mp hf
  unfold bitPlace viewBit fieldLow
  cases f.be with
  | false =>
    simp only [Bool.false_eq_true, if_false, Option.ite_none_right_eq_some, Option.some.injEq]
    omega
  | true =>
    simp only [if_true, Option.ite_none_right_eq_some, Option.some.injEq]
    have hlt := sprime_lt f.pos
    obtain hgt | hle := Nat.lt_or_ge (sprime f.pos) (f.width - 1 - j)
    · have := le_beNext_iterate (by omega) hgt
      omega
    · rw [beNext_iterate (by omega) hle]
      unfold sprime at *
      omega

/-- Value bit `j` has no place where the view has no bit `fieldLow f + j`. -/
theorem bitPlace_eq_none_iff {f : FieldRef} (hf : f.wf = true) {j : Nat} (hj : j < f.width) :
    bitPlace f j = none ↔ ¬(0 ≤ fieldLow f + j ∧ fieldLow f + j < 64) := by
  rw [Option.eq_none_iff_forall_ne_some]
  constructor
  · intro h hin
    obtain ⟨i, hi⟩ := Int.eq_ofNat_of_zero_le hin.1
    refine h (viewBit f.be i) ((bitPlace_eq_some_iff hf hj).mpr ⟨viewBit_lt _ (by omega), ?_⟩)
    rw [viewBit_viewBit _ (by omega)]
    exact hi.symm
  · intro h q hq
    obtain ⟨hlt, hv⟩ := (bitPlace_eq_some_iff hf hj).mp hq
    have := viewBit_lt f.be hlt
    omega

theorem wf_of_fieldFits {f : FieldRef} (h : fieldFits f) : f.wf = true := by
  obtain ⟨hmin, hmax, hpos, -⟩ := h
  exact FieldRef.wf_iff.mpr ⟨hpos, hmin, hmax⟩

/-- Every bit of a field that fits has a place in the payload (R28). -/
theorem exists_bitPlace {f : FieldRef} (hfit : fieldFits f) {j : Nat} (hj : j < f.width) :
    ∃ q < 64, bitPlace f j = some q := by
  have hwf := wf_of_fieldFits hfit
  obtain ⟨-, -, -, hin⟩ := hfit
  have hlow : 0 ≤ fieldLow f + j ∧ fieldLow f + j < 64 := by
    unfold fieldLow
    cases hbe : f.be with
    | false =>
      rw [hbe, if_neg (by decide)] at hin
      rw [if_neg (by decide)]
      omega
    | true =>
      rw [hbe, if_pos rfl] at hin
      rw [if_pos rfl, sprime]
      omega
  obtain ⟨q, hq⟩ := Option.ne_none_iff_exists'.mp fun hnone => (bitPlace_eq_none_iff hwf hj).mp hnone hlow
  exact ⟨q, ((bitPlace_eq_some_iff hwf hj).mp hq).1, hq⟩

theorem bitRead_of_bitPlace {p : Payload} {f : FieldRef} {j q : Nat} (h : bitPlace f j = some q) :
    bitRead p f j = p.getLsbD q := by
  rw [bitRead, h]

theorem bitDeposited_iff {f : FieldRef} {v : Word} {q : Nat} :
    bitDeposited f v q = true ↔ ∃ j < f.width, bitPlace f j = some q ∧ v.getLsbD j = true := by
  simp [bitDeposited]

theorem bitInField_iff {f : FieldRef} {q : Nat} :
    bitInField f q = true ↔ ∃ j < f.width, bitPlace f j = some q := by
  simp [bitInField]

/-- No two bits of a field share a place. -/
theorem bitPlace_inj {f : FieldRef} (hf : f.wf = true) {j k q : Nat} (hj : j < f.width) (hk : k < f.width)
    (hjq : bitPlace f j = some q) (hkq : bitPlace f k = some q) : j = k := by
  have h1 := ((bitPlace_eq_some_iff hf hj).mp hjq).2
  have h2 := ((bitPlace_eq_some_iff hf hk).mp hkq).2
  omega

theorem bitDeposited_of_bitPlace {f : FieldRef} (hf : f.wf = true) {v : Word} {j q : Nat} (hj : j < f.width)
    (h : bitPlace f j = some q) : bitDeposited f v q = v.getLsbD j := by
  rw [Bool.eq_iff_iff, bitDeposited_iff]
  constructor
  · rintro ⟨k, hk, hkq, hv⟩
    rwa [bitPlace_inj hf hj hk h hkq]
  · exact fun hv => ⟨j, hj, h, hv⟩

/-! ## The model's reads and writes -/

theorem bitRead_eq_shiftBits {f : FieldRef} (hf : f.wf = true) (p : Payload) {j : Nat} (hj : j < f.width) :
    bitRead p f j = (shiftBits (fieldView p f.be) (-fieldLow f)).getLsbD j := by
  obtain ⟨-, -, hw⟩ := FieldRef.wf_iff.mp hf
  rw [getLsbD_shiftBits _ _ (by omega)]
  cases hq : bitPlace f j with
  | none =>
    have hout := (bitPlace_eq_none_iff hf hj).mp hq
    rw [bitRead, hq]
    by_cases hlow : -fieldLow f ≤ j
    · rw [BitVec.getLsbD_of_ge _ _ (by omega), Bool.and_false]
    · rw [decide_eq_false hlow, Bool.false_and]
  | some q =>
    obtain ⟨hlt, hv⟩ := (bitPlace_eq_some_iff hf hj).mp hq
    have hidx : ((j : Int) - -fieldLow f).toNat = viewBit f.be q := by omega
    rw [bitRead_of_bitPlace hq, decide_eq_true (by omega), Bool.true_and, hidx,
      getLsbD_fieldView _ _ (viewBit_lt _ hlt), viewBit_viewBit _ hlt]

/-- R102: bit `j` of the raw field. -/
theorem getLsbD_getField {f : FieldRef} (hf : f.wf = true) (p : Payload) (j : Nat) :
    (getField p f).getLsbD j = (decide (j < f.width) && bitRead p f j) := by
  obtain ⟨-, -, hw⟩ := FieldRef.wf_iff.mp hf
  by_cases hj : j < f.width
  · have hj32 : j < 32 := by omega
    simp [getField, getLsbD_mask64, fetchBits_eq_shiftBits, bitRead_eq_shiftBits hf p hj, hj, hj32,
      Nat.lt_trans hj32 (by decide : 32 < 64)]
  · simp [getField, getLsbD_mask64, hj]

theorem getLsbD_setWidth_and_mask64 (v : Word) (n j : Nat) :
    (v.setWidth 64 &&& mask64 n).getLsbD j = (decide (j < n) && v.getLsbD j) := by
  rw [BitVec.getLsbD_and, BitVec.getLsbD_setWidth, getLsbD_mask64]
  obtain hj | hj := Nat.lt_or_ge j 32
  · rw [decide_eq_true (by omega : j < 64), Bool.true_and, Bool.true_and, Bool.and_comm]
  · simp [BitVec.getLsbD_of_ge v _ hj]

theorem bitDeposited_eq_shiftBits {f : FieldRef} (hf : f.wf = true) (v : Word) {q : Nat} (hq : q < 64) :
    bitDeposited f v q =
      (shiftBits (v.setWidth 64 &&& mask64 f.width) (fieldLow f)).getLsbD (viewBit f.be q) := by
  rw [getLsbD_shiftBits _ _ (viewBit_lt _ hq), getLsbD_setWidth_and_mask64, Bool.eq_iff_iff, bitDeposited_iff]
  simp only [Bool.and_eq_true, decide_eq_true_eq]
  constructor
  · rintro ⟨j, hj, hplace, hv⟩
    have hview := ((bitPlace_eq_some_iff hf hj).mp hplace).2
    have hidx : ((viewBit f.be q : Int) - fieldLow f).toNat = j := by omega
    rw [hidx]
    exact ⟨by omega, hj, hv⟩
  · rintro ⟨hle, hj, hv⟩
    exact ⟨_, hj, (bitPlace_eq_some_iff hf hj).mpr ⟨hq, by omega⟩, hv⟩

/-- R103: payload bit `q` once the low bits of a value are ORed into the field. -/
theorem getLsbD_putOr {f : FieldRef} (hf : f.wf = true) (p : Payload) (v : Word) {q : Nat} (hq : q < 64) :
    (putOr p f v).getLsbD q = (p.getLsbD q || bitDeposited f v q) := by
  unfold putOr
  rw [fieldView_or, fieldView_fieldView, BitVec.getLsbD_or, getLsbD_fieldView _ _ hq, placeBits_eq_shiftBits,
    bitDeposited_eq_shiftBits hf v hq]

/-- The field's mask has a 1 exactly at the field's bits. -/
theorem bitDeposited_mask32 {f : FieldRef} (hf : f.wf = true) (q : Nat) :
    bitDeposited f (mask32 f.width) q = bitInField f q := by
  obtain ⟨-, -, hw⟩ := FieldRef.wf_iff.mp hf
  rw [Bool.eq_iff_iff, bitDeposited_iff, bitInField_iff]
  refine exists_congr fun j => and_congr_right fun hj => and_iff_left ?_
  simp [getLsbD_mask32, hj, Nat.lt_of_lt_of_le hj hw]

/-- R104: payload bit `q` once the field's bits are replaced. -/
theorem getLsbD_insertField {f : FieldRef} (hf : f.wf = true) (p : Payload) (v : Word) {q : Nat} (hq : q < 64) :
    (insertField p f v).getLsbD q = if bitInField f q then bitDeposited f v q else p.getLsbD q := by
  have hbits : (insertField p f v).getLsbD q = (p.getLsbD q && !bitInField f q || bitDeposited f v q) := by
    rw [insertField, BitVec.getLsbD_or, BitVec.getLsbD_and, BitVec.getLsbD_not, getLsbD_putOr hf _ _ hq,
      getLsbD_putOr hf _ _ hq, bitDeposited_mask32 hf]
    simp [hq]
  rw [hbits]
  cases hin : bitInField f q with
  | true => simp
  | false =>
    have hnone : bitDeposited f v q = false := by
      rw [← Bool.not_eq_true, bitDeposited_iff]
      rintro ⟨j, hj, hplace, -⟩
      simp [bitInField_iff.mpr ⟨j, hj, hplace⟩] at hin
    simp [hnone]

/-! ## What is read back -/

/-- The raw field, from its bits. -/
theorem getField_eq_lowBits {f : FieldRef} (hf : f.wf = true) {p : Payload} {v : Word}
    (h : ∀ j < f.width, bitRead p f j = v.getLsbD j) : getField p f = lowBits f.width v := by
  refine BitVec.eq_of_getLsbD_eq fun j hj => ?_
  rw [getLsbD_getField hf, lowBits, BitVec.getLsbD_and, getLsbD_mask32, decide_eq_true hj, Bool.true_and,
    Bool.and_comm]
  obtain hw | hw := Nat.lt_or_ge j f.width
  · rw [h j hw]
  · rw [decide_eq_false (by omega), Bool.and_false, Bool.and_false]

theorem toNat_lowBits {n : Nat} (h : n ≤ 32) (x : Word) : (lowBits n x).toNat = x.toNat % 2 ^ n := by
  have hle : 2 ^ n ≤ 2 ^ 32 := Nat.pow_le_pow_right (by decide) h
  have hpos : 0 < 2 ^ n := Nat.two_pow_pos n
  rw [lowBits, BitVec.toNat_and, mask32, BitVec.toNat_ofNat, Nat.mod_eq_of_lt (by omega),
    Nat.and_two_pow_sub_one_eq_mod]

theorem getField_putOr_zero {f : FieldRef} (h : fieldFits f) (v : Word) :
    getField (putOr 0#64 f v) f = lowBits f.width v := by
  have hf := wf_of_fieldFits h
  refine getField_eq_lowBits hf fun j hj => ?_
  obtain ⟨q, hq, hplace⟩ := exists_bitPlace h hj
  rw [bitRead_of_bitPlace hplace, getLsbD_putOr hf _ _ hq, bitDeposited_of_bitPlace hf hj hplace,
    BitVec.getLsbD_zero, Bool.false_or]

theorem getField_insertField {f : FieldRef} (h : fieldFits f) (p : Payload) (v : Word) :
    getField (insertField p f v) f = lowBits f.width v := by
  have hf := wf_of_fieldFits h
  refine getField_eq_lowBits hf fun j hj => ?_
  obtain ⟨q, hq, hplace⟩ := exists_bitPlace h hj
  rw [bitRead_of_bitPlace hplace, getLsbD_insertField hf _ _ hq, if_pos (bitInField_iff.mpr ⟨j, hj, hplace⟩),
    bitDeposited_of_bitPlace hf hj hplace]

theorem getField_allOnes {f : FieldRef} (h : fieldFits f) : getField (BitVec.allOnes 64) f = mask32 f.width := by
  have hf := wf_of_fieldFits h
  obtain ⟨-, -, hw⟩ := FieldRef.wf_iff.mp hf
  have hread : ∀ j < f.width, bitRead (BitVec.allOnes 64) f j = (BitVec.allOnes 32).getLsbD j := by
    intro j hj
    obtain ⟨q, hq, hplace⟩ := exists_bitPlace h hj
    rw [bitRead_of_bitPlace hplace, BitVec.getLsbD_allOnes, BitVec.getLsbD_allOnes, decide_eq_true hq,
      decide_eq_true (Nat.lt_of_lt_of_le hj hw)]
  rw [getField_eq_lowBits hf hread, lowBits, BitVec.allOnes_and]

/-- R112: a field keeps the payload when its own bits are written back. -/
theorem insertField_getField {f : FieldRef} (hf : f.wf = true) (p : Payload) :
    insertField p f (getField p f) = p := by
  refine BitVec.eq_of_getLsbD_eq fun q hq => ?_
  rw [getLsbD_insertField hf _ _ hq]
  split
  · next hin =>
    obtain ⟨j, hj, hplace⟩ := bitInField_iff.mp hin
    rw [bitDeposited_of_bitPlace hf hj hplace, getLsbD_getField hf, decide_eq_true hj, Bool.true_and,
      bitRead_of_bitPlace hplace]
  · rfl

/-! ## The integer a field reads as (R105) -/

/-- R10: `sext_n` is the two's complement value of the low `n` bits. -/
theorem sextField_eq_toInt {n : Nat} (hn : 1 ≤ n) (raw : Word) : sextField raw n = (raw.setWidth n).toInt := by
  have hpow : 2 ^ n = 2 * 2 ^ (n - 1) := by rw [← Nat.pow_succ', Nat.succ_eq_add_one, Nat.sub_add_cancel hn]
  have hlow : raw.toNat % 2 ^ n < 2 ^ n := Nat.mod_lt _ (Nat.two_pow_pos n)
  have hmod : (raw.toNat + 2 ^ (n - 1)) % 2 ^ n =
      if raw.toNat % 2 ^ n < 2 ^ (n - 1) then raw.toNat % 2 ^ n + 2 ^ (n - 1)
      else raw.toNat % 2 ^ n - 2 ^ (n - 1) := by
    rw [← Nat.mod_add_mod]
    split
    · exact Nat.mod_eq_of_lt (by omega)
    · rw [Nat.mod_eq_sub_mod (by omega), Nat.mod_eq_of_lt (by omega)]
      omega
  have hcast : (2 : Int) ^ (n - 1) = ((2 ^ (n - 1) : Nat) : Int) := by push_cast; rfl
  rw [sextField, BitVec.toInt_eq_toNat_cond, BitVec.toNat_setWidth, hmod, hcast]
  split <;> split <;> omega

theorem ival_of_unextended {n : Nat} {sg : Bool} (h : ¬(sg = true ∧ 1 < n)) (raw : Word) :
    ival raw n sg = raw.toNat :=
  if_neg (by simpa using h)

theorem ival_of_extended {n : Nat} (hn : 1 < n) (raw : Word) : ival raw n true = (raw.setWidth n).toInt := by
  rw [ival, if_pos (by simpa using hn), sextField_eq_toInt (Nat.le_of_lt hn)]

theorem ofInt_ival_of_unextended {n : Nat} {sg : Bool} (h : ¬(sg = true ∧ 1 < n)) (raw : Word) :
    BitVec.ofInt 32 (ival raw n sg) = raw := by
  rw [ival_of_unextended h, BitVec.ofInt_natCast, BitVec.ofNat_toNat, BitVec.setWidth_eq]

/-- Bit `j` of a field's integer as a 32-bit word: the field's bit, or above the field the sign. -/
theorem getLsbD_ofInt_ival {f : FieldRef} (hf : f.wf = true) (p : Payload) (sg : Bool) {j : Nat} (hj : j < 32) :
    (BitVec.ofInt 32 (ival (getField p f) f.width sg)).getLsbD j =
      if j < f.width then bitRead p f j else (sg && decide (1 < f.width) && bitRead p f (f.width - 1)) := by
  obtain ⟨-, hmin, -⟩ := FieldRef.wf_iff.mp hf
  have htop : f.width - 1 < f.width := by omega
  by_cases hext : sg = true ∧ 1 < f.width
  · obtain ⟨rfl, hw⟩ := hext
    have hword : BitVec.ofInt 32 (ival (getField p f) f.width true) =
        ((getField p f).setWidth f.width).signExtend 32 := congrArg (BitVec.ofInt 32) (ival_of_extended hw _)
    rw [hword, BitVec.getLsbD_signExtend, BitVec.msb_setWidth, BitVec.getLsbD_setWidth, getLsbD_getField hf,
      getLsbD_getField hf]
    by_cases hjw : j < f.width
    · simp [hj, hjw]
    · simp [hj, hw, htop, hjw, Nat.zero_lt_of_lt hw]
  · rw [ofInt_ival_of_unextended hext, getLsbD_getField hf]
    have hnone : (sg && decide (1 < f.width)) = false := by simpa using hext
    rw [hnone]
    by_cases hjw : j < f.width <;> simp [hjw]

end Sys2Proof.Machine
end

section
/-! The codec commands that move bits: what each answers, and the round trips (spec/40_codec.md R110 to R123). -/

namespace Sys2Proof.Machine

/-! ## What each command answers -/

theorem exec_fxGet (p : Payload) (f : FieldRef) (sg : Bool) (s : State) :
    exec (.fxGet p f sg) s = .next { s with rv := BitVec.ofInt 32 (ival (getField p f) f.width sg), rc := 0#32 } := rfl

theorem exec_fxGet_unsigned (p : Payload) (f : FieldRef) (s : State) :
    exec (.fxGet p f false) s = .next { s with rv := getField p f, rc := 0#32 } := by
  rw [exec_fxGet, ofInt_ival_of_unextended (by simp)]

theorem exec_fxOr (p : Payload) (f : FieldRef) (v : Word) (s : State) :
    exec (.fxOr p f v) s = .next { s with rp := putOr p f v, rc := 0#32 } := rfl

theorem exec_fxIns (p : Payload) (f : FieldRef) (v : Word) (s : State) :
    exec (.fxIns p f v) s = .next { s with rp := insertField p f v, rc := 0#32 } := rfl

theorem exec_fxDec (p : Payload) (f : FieldRef) (sg : Bool) (gain : F32) (ofs : Byte) (s : State) :
    exec (.fxDec p f sg gain ofs) s =
      .next { s with
        rf := c4Dec (ival (getField p f) f.width sg) ofs gain
        rv := BitVec.ofInt 32 (ival (getField p f) f.width sg)
        rc := 0#32 } := rfl

/-- Settles O25: RV is the field's integer, whose bits are the field's (`getLsbD_ofInt_ival`). -/
theorem fxGetReadsItsField : Obligations.FxGetReadsItsField := fun p f sg s hf =>
  ⟨_, exec_fxGet p f sg s, fun _ hj => getLsbD_ofInt_ival hf p sg hj⟩

/-- Settles O26, by the bits of an OR-deposit. -/
theorem fxOrDepositsItsField : Obligations.FxOrDepositsItsField := fun p f v s hf =>
  ⟨_, exec_fxOr p f v s, fun _ hq => getLsbD_putOr hf p v hq⟩

/-- Settles O27, by the bits of an insertion. -/
theorem fxInsReplacesItsField : Obligations.FxInsReplacesItsField := fun p f v s hf =>
  ⟨_, exec_fxIns p f v s, fun _ hq => getLsbD_insertField hf p v hq⟩

/-- Settles O28: `c4_dec` is the scaling of R106. -/
theorem fxDecScalesItsField : Obligations.FxDecScalesItsField := exec_fxDec

/-- Settles O29: `c4_enc` is the scaling of R107, and its low bits are the value modulo `2 ^ n`. -/
theorem fxEncScalesItsValue : Obligations.FxEncScalesItsValue := by
  intro p f val gain ofs s hf
  obtain ⟨-, -, hw⟩ := FieldRef.wf_iff.mp hf
  exact ⟨s.oobDraw 0, c4Enc (s.oobDraw 0) val gain ofs f.width, s.draws + 1, toNat_lowBits hw _, exec_fxEnc_of_raw rfl⟩

/-! ## Round trips -/

/-- FX.GET of a field that holds the low bits of a value. -/
theorem exec_fxGet_of_lowBits {f : FieldRef} (hf : fieldFits f) {p : Payload} {v : Word}
    (h : getField p f = lowBits f.width v) (s : State) :
    ∃ u, exec (.fxGet p f false) s = .next u ∧ u.rv.toNat = v.toNat % 2 ^ f.width := by
  obtain ⟨-, hw, -⟩ := hf
  refine ⟨_, exec_fxGet_unsigned p f s, ?_⟩
  dsimp only
  rw [h, toNat_lowBits hw]

/-- FX.INS into a field that fits, then FX.GET of it from the result. -/
theorem exec_fxIns_fxGet {f : FieldRef} (hf : fieldFits f) (p : Payload) (v : Word) (s : State) :
    ∃ t, exec (.fxIns p f v) s = .next t ∧
      ∃ u, exec (.fxGet t.rp f false) t = .next u ∧ u.rv.toNat = v.toNat % 2 ^ f.width :=
  ⟨_, exec_fxIns p f v s, exec_fxGet_of_lowBits hf (getField_insertField hf p v) _⟩

/-- Settles O32: every bit of a field that fits has its own place, where it is read back. -/
theorem littleEndianRoundTrip : Obligations.LittleEndianRoundTrip := by
  intro p pos n v s hmin hmax hin
  have hf : fieldFits { pos := pos, width := n, be := false } := ⟨hmin, hmax, by dsimp only; omega, hin⟩
  exact ⟨⟨_, exec_fxOr _ _ v s, exec_fxGet_of_lowBits hf (getField_putOr_zero hf v) _⟩, exec_fxIns_fxGet hf p v s⟩

/-- Settles O33: a big-endian field that fits has all its places above view position 0. -/
theorem bigEndianRoundTrip : Obligations.BigEndianRoundTrip := by
  intro p pos n v s hmin hmax hpos hin
  have hf : fieldFits { pos := pos, width := n, be := true } := ⟨hmin, hmax, hpos, hin⟩
  exact exec_fxIns_fxGet hf p v s

theorem ival_mask32 {n : Nat} (hn : 2 ≤ n) (hw : n ≤ 32) : ival (mask32 n) n true = -1 := by
  have hones : (mask32 n).setWidth n = BitVec.allOnes n := by
    refine BitVec.eq_of_getLsbD_eq fun j hj => ?_
    simp [getLsbD_mask32, hj]
    omega
  rw [ival_of_extended hn, hones, BitVec.toInt_allOnes, if_pos (by omega)]

/-- Settles O34: the field of an all-ones payload is all ones. -/
theorem signedAllOnesIsMinusOne : Obligations.SignedAllOnesIsMinusOne := by
  intro pos n be s hn hf
  obtain ⟨-, -, hw⟩ := FieldRef.wf_iff.mp (wf_of_fieldFits hf)
  refine ⟨ival_mask32 hn hw, _, exec_fxGet _ _ _ s, ?_⟩
  dsimp only
  have hraw : getField 0xFFFFFFFFFFFFFFFF#64 { pos := pos, width := n, be := be } = mask32 n := getField_allOnes hf
  rw [hraw, ival_mask32 hn hw]
  decide

/-! ## Deposits in any order -/

theorem putOr_comm (p : Payload) (f g : FieldRef) (v w : Word) :
    putOr (putOr p f v) g w = putOr (putOr p g w) f v := by
  rw [putOr_eq_or (putOr p f v), putOr_eq_or p f, putOr_eq_or (putOr p g w), putOr_eq_or p g, BitVec.or_assoc,
    BitVec.or_assoc, BitVec.or_comm (putOr 0#64 f v)]

theorem putOr_putOr_self (p : Payload) (f : FieldRef) (v : Word) : putOr (putOr p f v) f v = putOr p f v := by
  rw [putOr_eq_or (putOr p f v), putOr_eq_or p, BitVec.or_assoc, BitVec.or_self]

/-- Settles O35: an OR-deposit ORs in a payload that does not depend on what it is ORed into (`putOr_eq_or`). -/
theorem orMergeLaws : Obligations.OrMergeLaws :=
  ⟨putOr_comm, putOr_putOr_self, fun p _ _ hperm => hperm.foldl_eq' (fun _ _ _ _ q => putOr_comm q _ _ _ _) p⟩

/-- Settles O36, by `insertField_getField`. -/
theorem insertOfTheReadValue : Obligations.InsertOfTheReadValue := fun p f s hf =>
  ⟨_, exec_fxGet_unsigned p f s, _, exec_fxIns p f _ _, insertField_getField hf p⟩

end Sys2Proof.Machine
end

section
/-! The f32 operations where they are exact: a finite f32 is `s * 2^e` units of 2^-149 for one exponent and significand,
`f32Magnitude` gives a value of that form its own bits, and so the integers up to 2^24 convert exactly and scaling by
1.0 and 0 changes nothing (spec/00_scope.md R11, R12; spec/40_codec.md R106, R107). -/

namespace Sys2Proof.Machine

/-! ## Exponent and significand -/

/-- The exponent `e`, from that of the subnormals up, and the significand `s` of a finite f32 of `s * 2^e` units. -/
structure IsForm (e s : Nat) : Prop where
  exponent_le : e ≤ 253
  significand_lt : s < 2 ^ 24
  normal : 2 ^ 23 ≤ s ∨ e = 0

/-- Neither a NaN nor an infinity. -/
abbrev f32Finite (a : F32) : Prop := f32Exp a < 255

theorem f32IsNaN_of_finite {a : F32} (h : f32Finite a) : f32IsNaN a = false := by
  simp [f32IsNaN, Nat.ne_of_lt h]

theorem f32IsInf_of_finite {a : F32} (h : f32Finite a) : f32IsInf a = false := by
  simp [f32IsInf, Nat.ne_of_lt h]

theorem f32Exp_eq (a : F32) : f32Exp a = a.toNat / 2 ^ 23 % 2 ^ 8 := by
  rw [f32Exp, BitVec.extractLsb'_toNat, Nat.shiftRight_eq_div_pow]

theorem f32Frac_eq (a : F32) : f32Frac a = a.toNat % 2 ^ 23 := by
  rw [f32Frac, BitVec.extractLsb'_toNat, Nat.shiftRight_zero]

theorem f32Sign_eq (a : F32) : f32Sign a = decide (2 ^ 31 ≤ a.toNat) :=
  a.msb_eq_getLsbD_last.symm.trans a.msb_eq_decide

theorem toNat_f32Pack (neg : Bool) {mag : Nat} (h : mag < 2 ^ 31) :
    (f32Pack neg mag).toNat = (if neg then 2 ^ 31 else 0) + mag := by
  rw [f32Pack, BitVec.toNat_ofNat]
  refine Nat.mod_eq_of_lt ?_
  split <;> omega

theorem IsForm.bits_lt {e s : Nat} (h : IsForm e s) : e * 2 ^ 23 + s < 0x7F800000 := by
  obtain ⟨he, hs, -⟩ := h
  omega

theorem f32Sign_f32Pack (neg : Bool) {e s : Nat} (h : IsForm e s) : f32Sign (f32Pack neg (e * 2 ^ 23 + s)) = neg := by
  have hlt := h.bits_lt
  rw [f32Sign_eq, toNat_f32Pack neg (by omega)]
  cases neg with
  | false => exact decide_eq_false (by simp only [Bool.false_eq_true, if_false]; omega)
  | true => exact decide_eq_true (Nat.le_add_right _ _)

theorem f32Exp_f32Pack (neg : Bool) {e s : Nat} (h : IsForm e s) :
    f32Exp (f32Pack neg (e * 2 ^ 23 + s)) = e + s / 2 ^ 23 := by
  have hlt := h.bits_lt
  rw [f32Exp_eq, toNat_f32Pack neg (by omega)]
  split <;> omega

theorem f32Frac_f32Pack (neg : Bool) {e s : Nat} (h : IsForm e s) :
    f32Frac (f32Pack neg (e * 2 ^ 23 + s)) = s % 2 ^ 23 := by
  have hlt := h.bits_lt
  rw [f32Frac_eq, toNat_f32Pack neg (by omega)]
  split <;> omega

theorem f32Finite_f32Pack (neg : Bool) {e s : Nat} (h : IsForm e s) : f32Finite (f32Pack neg (e * 2 ^ 23 + s)) := by
  rw [f32Finite, f32Exp_f32Pack neg h]
  obtain ⟨he, hs, -⟩ := h
  omega

theorem f32Units_f32Pack (neg : Bool) {e s : Nat} (h : IsForm e s) :
    f32Units (f32Pack neg (e * 2 ^ 23 + s)) = s * 2 ^ e := by
  rw [f32Units, f32Exp_f32Pack neg h, f32Frac_f32Pack neg h]
  obtain ⟨he, hs, hnormal⟩ := h
  obtain hlow | hhigh := Nat.lt_or_ge s (2 ^ 23)
  · obtain rfl : e = 0 := by omega
    rw [if_pos (by omega), Nat.mod_eq_of_lt hlow, Nat.pow_zero, Nat.mul_one]
  · have hfrac : s % 2 ^ 23 + 2 ^ 23 = s := by omega
    have hexp : e + s / 2 ^ 23 - 1 = e := by omega
    rw [if_neg (by omega), hfrac, hexp]

/-- Every finite f32 has an exponent and a significand. -/
theorem exists_isForm {a : F32} (h : f32Finite a) :
    ∃ e s, IsForm e s ∧ a = f32Pack (f32Sign a) (e * 2 ^ 23 + s) := by
  have hexp := f32Exp_eq a
  have hfrac := f32Frac_eq a
  have hlt : a.toNat < 2 ^ 32 := a.isLt
  unfold f32Finite at h
  have hpack (mag : Nat) (hmag : mag = f32Exp a * 2 ^ 23 + f32Frac a) : a = f32Pack (f32Sign a) mag := by
    refine BitVec.eq_of_toNat_eq ?_
    rw [toNat_f32Pack _ (by omega), f32Sign_eq]
    split
    · next hneg =>
      have := of_decide_eq_true hneg
      omega
    · next hpos =>
      have := of_decide_eq_false (Bool.eq_false_of_not_eq_true hpos)
      omega
  by_cases hzero : f32Exp a = 0
  · exact ⟨0, f32Frac a, ⟨by omega, by omega, .inr rfl⟩, hpack _ (by omega)⟩
  · exact ⟨f32Exp a - 1, f32Frac a + 2 ^ 23, ⟨by omega, by omega, .inl (by omega)⟩, hpack _ (by omega)⟩

/-! ## Rounding a value that needs none -/

theorem roundHalfEven_mul (s : Nat) {d : Nat} (hd : 0 < d) : roundHalfEven (s * d) d = s := by
  simp [roundHalfEven, hd]

theorem IsForm.log2_eq {e s : Nat} (h : IsForm e s) : Nat.log2 (s * 2 ^ e) - 23 = e := by
  obtain ⟨-, hs, hnormal⟩ := h
  obtain hhigh | rfl := hnormal
  · have hlog : Nat.log2 (s * 2 ^ e) = 23 + e := by
      refine (Nat.log2_eq_iff (Nat.mul_pos (by omega) (Nat.two_pow_pos e)).ne').mpr ⟨?_, ?_⟩
      · rw [Nat.pow_add]
        exact Nat.mul_le_mul_right _ hhigh
      · rw [Nat.add_right_comm, Nat.pow_add]
        exact Nat.mul_lt_mul_of_pos_right hs (Nat.two_pow_pos e)
    rw [hlog, Nat.add_sub_cancel_left]
  · obtain rfl | hpos := Nat.eq_zero_or_pos s
    · rfl
    · have : Nat.log2 s < 24 := (Nat.log2_lt hpos.ne').mpr hs
      rw [Nat.pow_zero, Nat.mul_one]
      omega

theorem f32Magnitude_of_isForm {e s num den : Nat} (h : IsForm e s) (hden : 0 < den)
    (hval : num * 2 ^ 149 = s * 2 ^ e * den) : f32Magnitude num den = e * 2 ^ 23 + s := by
  have hlast : Nat.log2 (num * 2 ^ 149 / den) - 23 = e := by
    rw [hval, Nat.mul_div_cancel _ hden, h.log2_eq]
  have hround : roundHalfEven (num * 2 ^ 149) (den * 2 ^ e) = s := by
    rw [hval, Nat.mul_assoc, Nat.mul_comm (2 ^ e)]
    exact roundHalfEven_mul s (Nat.mul_pos hden (Nat.two_pow_pos e))
  have hlt := h.bits_lt
  rw [f32Magnitude, hlast, hround]
  exact Nat.min_eq_left (Nat.le_of_lt hlt)

/-- Rounding the value of a finite f32 gives that f32. -/
theorem f32Pack_f32Magnitude_self {a : F32} (h : f32Finite a) {num den : Nat} (hden : 0 < den)
    (hval : num * 2 ^ 149 = f32Units a * den) : f32Pack (f32Sign a) (f32Magnitude num den) = a := by
  obtain ⟨e, s, hform, ha⟩ := exists_isForm h
  have hunits : f32Units a = s * 2 ^ e := by
    rw [ha]
    exact f32Units_f32Pack _ hform
  rw [f32Magnitude_of_isForm hform hden (by rw [hval, hunits]), ← ha]

/-! ## Scaling by 1.0 and 0 -/

theorem f32Units_one : f32Units 0x3F800000#32 = 2 ^ 149 := by decide

theorem f32Mul_one {a : F32} (h : f32Finite a) : f32Mul a 0x3F800000#32 = a := by
  have hone : f32Finite 0x3F800000#32 := by decide
  have hsign : (f32Sign a != f32Sign 0x3F800000#32) = f32Sign a := Bool.xor_false _
  simp only [f32Mul, f32IsNaN_of_finite h, f32IsNaN_of_finite hone, f32IsInf_of_finite h, f32IsInf_of_finite hone,
    Bool.or_self, Bool.false_eq_true, if_false, hsign, f32Units_one]
  exact f32Pack_f32Magnitude_self h (by decide) (Nat.mul_assoc _ _ _)

theorem natAbs_f32Int (a : F32) : (f32Int a).natAbs = f32Units a := by
  unfold f32Int
  split <;> omega

theorem decide_f32Int_neg {a : F32} (h : f32Int a ≠ 0) : decide (f32Int a < 0) = f32Sign a := by
  unfold f32Int at *
  cases hs : f32Sign a with
  | false => exact decide_eq_false (by simp)
  | true =>
    rw [hs, if_pos rfl] at h
    exact decide_eq_true (by rw [if_pos rfl]; omega)

/-- Adding +0.0 keeps a finite f32 other than -0.0. -/
theorem f32Add_zero {a : F32} (h : f32Finite a) (hsign : f32Int a = 0 → f32Sign a = false) :
    f32Add a 0#32 = a := by
  have hzero : f32Finite 0#32 := by decide
  have hint : f32Int a + f32Int 0#32 = f32Int a := Int.add_zero _
  have hself : f32Pack (f32Sign a) (f32Magnitude (f32Int a).natAbs (2 ^ 149)) = a :=
    f32Pack_f32Magnitude_self h (by decide) (by rw [natAbs_f32Int])
  simp only [f32Add, f32Sum, f32IsNaN_of_finite h, f32IsNaN_of_finite hzero, f32IsInf_of_finite h,
    f32IsInf_of_finite hzero, Bool.or_self, Bool.false_eq_true, if_false, hint]
  split
  · next hz =>
    have hmag : f32Magnitude 0 (2 ^ 149) = 0 := by decide
    rw [hsign hz, hz, Int.natAbs_zero, hmag] at hself
    rw [hsign hz, Bool.false_and, hself]
  · next hz => rw [decide_f32Int_neg hz, hself]

/-! ## Integers up to 2^24 -/

/-- An integer of magnitude at most 2^24 is a significand and an exponent. -/
theorem exists_isForm_of_le {m : Nat} (h : m ≤ 2 ^ 24) : ∃ e s, IsForm e s ∧ m * 2 ^ 149 = s * 2 ^ e := by
  obtain rfl | hpos := Nat.eq_zero_or_pos m
  · exact ⟨0, 0, ⟨by decide, by decide, .inr rfl⟩, rfl⟩
  obtain rfl | hlt := Nat.eq_or_lt_of_le h
  · exact ⟨150, 2 ^ 23, ⟨by decide, by decide, .inl le_rfl⟩, by decide⟩
  obtain ⟨hlow, hhigh⟩ := (Nat.log2_eq_iff hpos.ne').mp rfl
  have hlog : Nat.log2 m < 24 := (Nat.log2_lt hpos.ne').mpr hlt
  refine ⟨Nat.log2 m + 126, m * 2 ^ (23 - Nat.log2 m), ⟨by omega, ?_, .inl ?_⟩, ?_⟩
  · calc m * 2 ^ (23 - Nat.log2 m)
      _ < 2 ^ (Nat.log2 m + 1) * 2 ^ (23 - Nat.log2 m) := Nat.mul_lt_mul_of_pos_right hhigh (Nat.two_pow_pos _)
      _ = 2 ^ 24 := by rw [← Nat.pow_add]; congr 1; omega
  · calc 2 ^ 23
      _ = 2 ^ Nat.log2 m * 2 ^ (23 - Nat.log2 m) := by rw [← Nat.pow_add]; congr 1; omega
      _ ≤ m * 2 ^ (23 - Nat.log2 m) := Nat.mul_le_mul_right _ hlow
  · rw [Nat.mul_assoc, ← Nat.pow_add]
    congr 2
    omega

/-- `i2f` is exact up to 2^24. -/
theorem i2f_exact {x : Int} (h : x.natAbs ≤ 2 ^ 24) :
    f32Finite (i2f x) ∧ f32Sign (i2f x) = decide (x < 0) ∧ f32Units (i2f x) = x.natAbs * 2 ^ 149 := by
  obtain ⟨e, s, hform, hval⟩ := exists_isForm_of_le h
  rw [i2f, f32Magnitude_of_isForm hform (by decide) (by rw [hval, Nat.mul_one]), hval]
  exact ⟨f32Finite_f32Pack _ hform, f32Sign_f32Pack _ hform, f32Units_f32Pack _ hform⟩

theorem f32Int_i2f {x : Int} (h : x.natAbs ≤ 2 ^ 24) : f32Int (i2f x) = x * 2 ^ 149 := by
  obtain ⟨-, hsign, hunits⟩ := i2f_exact h
  simp only [f32Int, hsign, hunits, decide_eq_true_eq]
  split <;> omega

/-- `i2f` never gives -0.0. -/
theorem f32Sign_i2f_of_zero {x : Int} (h : x.natAbs ≤ 2 ^ 24) (hz : f32Int (i2f x) = 0) :
    f32Sign (i2f x) = false := by
  obtain ⟨-, hsign, -⟩ := i2f_exact h
  rw [f32Int_i2f h] at hz
  rw [hsign]
  exact decide_eq_false (by omega)

theorem f32Add_i2f_zero {x : Int} (h : x.natAbs ≤ 2 ^ 24) : f32Add (i2f x) (i2f (0#8).toInt) = i2f x := by
  have hzero : i2f (0#8).toInt = 0#32 := by decide
  obtain ⟨hfin, -, -⟩ := i2f_exact h
  rw [hzero, f32Add_zero hfin (f32Sign_i2f_of_zero h)]

/-- R106 with gain 1.0 and offset 0. -/
theorem c4Dec_one_zero {x : Int} (h : x.natAbs ≤ 2 ^ 24) : c4Dec x 0#8 0x3F800000#32 = i2f x := by
  obtain ⟨hfin, -, -⟩ := i2f_exact h
  rw [c4Dec, f32Add_i2f_zero h, f32Mul_one hfin]

theorem f2iTrunc_i2f {x : Int} (h : x.natAbs ≤ 2 ^ 24) (draw : Word) : f2iTrunc draw (i2f x) = BitVec.ofInt 32 x := by
  obtain ⟨hfin, hsign, hunits⟩ := i2f_exact h
  have hval : signed (decide (x < 0)) x.natAbs = x := by
    simp only [signed, decide_eq_true_eq]
    split <;> omega
  rw [f2iTrunc, f32IsNaN_of_finite hfin, f32IsInf_of_finite hfin, if_neg (by decide), hunits, hsign,
    Nat.mul_div_cancel _ (by decide), hval, int32Or, if_pos (by omega)]

/-- R107 with gain 1.0 and offset 0: the sum is in range, so the draw is not read. -/
theorem c4Enc_one_zero {x : Int} (h : x.natAbs ≤ 2 ^ 24) (draw : Word) (n : Nat) :
    c4Enc draw (i2f x) 0x3F800000#32 0#8 n = lowBits n (BitVec.ofInt 32 x) := by
  obtain ⟨hfin, -, -⟩ := i2f_exact h
  rw [c4Enc, f32Mul_one hfin, f32Add_i2f_zero h, f2iTrunc_i2f h]

/-! ## The scaling commands -/

theorem toNat_getField_lt {f : FieldRef} (hf : f.wf = true) (p : Payload) : (getField p f).toNat < 2 ^ f.width := by
  obtain ⟨-, -, hw⟩ := FieldRef.wf_iff.mp hf
  have hlow : getField p f = lowBits f.width (getField p f) :=
    getField_eq_lowBits hf fun j hj => by rw [getLsbD_getField hf, decide_eq_true hj, Bool.true_and]
  rw [hlow, toNat_lowBits hw]
  exact Nat.mod_lt _ (Nat.two_pow_pos _)

/-- A field of at most 24 bits reads as an integer of magnitude at most 2^24. -/
theorem natAbs_ival_le {f : FieldRef} (hf : f.wf = true) (hw : f.width ≤ 24) (p : Payload) (sg : Bool) :
    (ival (getField p f) f.width sg).natAbs ≤ 2 ^ 24 := by
  have hpow : 2 ^ f.width ≤ 2 ^ 24 := Nat.pow_le_pow_right (by decide) hw
  by_cases hext : sg = true ∧ 1 < f.width
  · obtain ⟨rfl, hn⟩ := hext
    rw [ival_of_extended hn]
    have hlo := BitVec.le_two_mul_toInt (x := (getField p f).setWidth f.width)
    have hhi := BitVec.two_mul_toInt_lt (x := (getField p f).setWidth f.width)
    have hcast : (2 : Int) ^ f.width ≤ 2 ^ 24 := mod_cast hpow
    omega
  · rw [ival_of_unextended hext, Int.natAbs_natCast]
    have := toNat_getField_lt hf p
    omega

theorem toNat_lowBits_ofInt {n : Nat} (hn : n ≤ 32) (x : Int) :
    ((lowBits n (BitVec.ofInt 32 x)).toNat : Int) = x % 2 ^ n := by
  have hdvd : (2 : Int) ^ n ∣ 2 ^ 32 := pow_dvd_pow 2 hn
  have hword : ((BitVec.ofInt 32 x).toNat : Int) = x % 2 ^ 32 := by
    rw [BitVec.toNat_ofInt]
    omega
  rw [toNat_lowBits hn]
  push_cast
  rw [hword, Int.emod_emod_of_dvd _ hdvd]

/-- Settles O30: the field's integer converts exactly, and scaling by 1.0 and 0 keeps it. -/
theorem fxDecIsExactOnSmallFields : Obligations.FxDecIsExactOnSmallFields := by
  intro p f sg s hf hw
  have hx := natAbs_ival_le hf hw p sg
  obtain ⟨hfin, -, -⟩ := i2f_exact hx
  refine ⟨_, exec_fxDec p f sg _ _ s, ?_⟩
  dsimp only
  rw [c4Dec_one_zero hx, f32Int_i2f hx, BitVec.toInt_ofInt_eq_self (by decide) (by omega) (by omega)]
  exact ⟨f32IsNaN_of_finite hfin, f32IsInf_of_finite hfin, rfl⟩

/-- Settles O31: the f32 of the integer truncates back to it, and its low bits are it modulo `2 ^ n`. -/
theorem fxEncIsExactOnSmallIntegers : Obligations.FxEncIsExactOnSmallIntegers := by
  intro p f x s hf hmin hmax
  obtain ⟨-, -, hw⟩ := FieldRef.wf_iff.mp hf
  exact ⟨_, exec_fxEnc_of_raw (c4Enc_one_zero (by omega) _ _), toNat_lowBits_ofInt hw x, rfl⟩

end Sys2Proof.Machine
end

section
/-! FRAME.RX: which entry a received id selects, and the ParamWrites of its slots (spec/41_frame.md R141, R142, R147). -/

namespace Sys2Proof.Machine

/-! ## The received id -/

/-- The mask of R140 as the literal R142 and the statements write. -/
theorem pnum_eq_and (a : Word) : pnum a = a &&& 0xDFFFFFFF#32 := rfl

/-- `pnum` does not read bit 29 (R140). -/
theorem pnum_or_forcePub (a : Word) : pnum (a ||| forcePub) = pnum (a &&& ~~~forcePub) := by
  apply BitVec.eq_of_getLsbD_eq
  intro i _
  simp only [pnum, BitVec.getLsbD_and, BitVec.getLsbD_or, BitVec.getLsbD_not]
  cases a.getLsbD i <;> cases forcePub.getLsbD i <;> simp

/-- `pnum` keeps bits 30 and 31, so an id that has one of them is above every numeric id (R141). -/
theorem maxNum_lt_pnum {a : Word} (b : IdBuild) (h : a.getLsbD 30 = true ∨ a.getLsbD 31 = true) :
    maxNum b < (pnum a).toNat := by
  have hmax : maxNum b < 2 ^ 30 := by cases b <;> decide
  have hbit : ∃ i, 30 ≤ i ∧ (pnum a).getLsbD i = true := by
    rcases h with h | h
    · exact ⟨30, by decide, by rw [pnum, BitVec.getLsbD_and, h]; decide⟩
    · exact ⟨31, by decide, by rw [pnum, BitVec.getLsbD_and, h]; decide⟩
  obtain ⟨i, hi, hset⟩ := hbit
  calc maxNum b < 2 ^ 30 := hmax
    _ ≤ 2 ^ i := Nat.pow_le_pow_right (by decide) hi
    _ ≤ (pnum a).toNat := Nat.ge_two_pow_of_testBit hset

/-- With distinct ids, an entry that has the id is the one `find` answers (R31(g)). -/
theorem State.find_eq_some {s : State} {t : Table} {i : Nat} {num : Word} (hd : s.idsDistinct t)
    (hi : i < s.count t) (hid : canon s.cfg.idBuild (s.entry t i).id = num) : s.find t num = some i := by
  obtain ⟨-, hnone⟩ | ⟨k, hk, hfind, hkid, -⟩ := s.find_cases t num
  · exact absurd hid (hnone i hi)
  · have hlen : k < ((s.live t).map fun e => canon s.cfg.idBuild e.id).length := by
      rwa [List.length_map, s.live_length]
    have hsame : ((s.live t).map fun e => canon s.cfg.idBuild e.id)[k]? =
        ((s.live t).map fun e => canon s.cfg.idBuild e.id)[i]? := by
      rw [List.getElem?_map, List.getElem?_map, s.live_getElem? t hk, s.live_getElem? t hi, Option.map_some,
        Option.map_some, hkid, hid]
    rw [hfind, (List.getElem?_inj hlen hd).mp hsame]

theorem State.find_eq_none {s : State} {t : Table} {num : Word}
    (h : ∀ i < s.count t, canon s.cfg.idBuild (s.entry t i).id ≠ num) : s.find t num = none := by
  obtain ⟨hnone, -⟩ | ⟨i, hi, -, hid, -⟩ := s.find_cases t num
  · exact hnone
  · exact absurd hid (h i hi)

/-! ## What FRAME.RX answers -/

theorem exec_frameRx_of_saveBusy {s : State} (hb : s.saveBusy = true) (id : Word) (p : Payload) (dlc : BitVec 4) :
    exec (.frameRx id p dlc) s = .next { s with rc := 0#32 } := if_pos hb

theorem exec_frameRx_of_no_entry {s : State} {id : Word}
    (h : ∀ i < s.count .rx, canon s.cfg.idBuild (s.entry .rx i).id ≠ pnum id) (p : Payload) (dlc : BitVec 4) :
    exec (.frameRx id p dlc) s = .next { s with rc := 0#32 } := by
  rw [exec, execFrameRx, State.find_eq_none h]
  exact ite_self _

theorem exec_frameRx_of_entry {s : State} {id : Word} {i : Nat} (hb : s.saveBusy = false)
    (hf : s.find .rx (pnum id) = some i) (p : Payload) (dlc : BitVec 4) :
    exec (.frameRx id p dlc) s =
      .next { s with
        events := s.events ++ slotWrites s p 0 (s.slotsOf (s.entry .rx i))
        rc := BitVec.ofNat 32 (s.slotsOf (s.entry .rx i)).length
        draws := s.draws + (s.slotsOf (s.entry .rx i)).length } := by
  rw [exec, execFrameRx, hf, if_neg (ne_true_of_eq_false hb)]
  rfl

theorem exec_frameRx_congr {id id' : Word} (h : pnum id = pnum id') (p : Payload) (dlc dlc' : BitVec 4) (s : State) :
    exec (.frameRx id p dlc) s = exec (.frameRx id' p dlc') s := by
  rw [exec, exec, execFrameRx, execFrameRx, h]

/-- The `k`-th ParamWrite is that of the `k`-th slot. -/
theorem slotWrites_eq_mapIdx (s : State) (p : Payload) (m : Nat) (js : List Nat) :
    slotWrites s p m js = js.mapIdx fun k j => slotWrite s p (m + k) j := by
  induction js generalizing m with
  | nil => rfl
  | cons j js ih => simp [slotWrites, ih, Nat.add_assoc, Nat.add_comm 1]

/-- Settles O39: the entry is looked up by `pnum id`, which clears bit 29, and nothing reads `dlc`. -/
theorem frameRxIgnoresDlcAndForceBit : Obligations.FrameRxIgnoresDlcAndForceBit := fun id p dlc dlc' s =>
  exec_frameRx_congr (pnum_or_forcePub id) p dlc dlc' s

/-- Settles O38: every receive entry holds a numeric id of the build (R31), below bit 30. -/
theorem receivedHighBitsNeverMatch : Obligations.ReceivedHighBitsNeverMatch := by
  intro id p dlc s hinv hbits
  obtain ⟨-, -, -, -, -, -, -, -, -, -, -, -, hids, -⟩ := hinv
  refine exec_frameRx_of_no_entry (fun i hi heq => ?_) p dlc
  obtain ⟨hle, -⟩ := hids _ (State.mem_live.mpr ⟨i, hi, rfl⟩)
  rw [heq] at hle
  exact absurd (maxNum_lt_pnum s.cfg.idBuild hbits) (Nat.not_lt.mpr hle)

/-- Settles O37: a frame is discarded or, ids being distinct, its entry is the one `find` answers, and the `m`-th event
is the ParamWrite of the `m`-th slot. -/
theorem frameRxDecodesItsEntry : Obligations.FrameRxDecodesItsEntry := by
  intro id p dlc s
  rw [← pnum_eq_and]
  refine ⟨fun hb => exec_frameRx_of_saveBusy hb id p dlc, fun hnone => exec_frameRx_of_no_entry hnone p dlc,
    fun i hinv hb hi hid => ?_⟩
  obtain ⟨-, -, -, -, -, -, -, -, -, -, hdistinct, -⟩ := hinv
  refine ⟨_, _, exec_frameRx_of_entry hb (State.find_eq_some hdistinct hi hid) p dlc, ?_, fun m j hj => ?_⟩
  · rw [slotWrites_eq_mapIdx, List.length_mapIdx]
  · refine ⟨s.oobDraw (0 + m), ?_⟩
    rw [slotWrites_eq_mapIdx, List.getElem?_mapIdx, hj]
    rfl

end Sys2Proof.Machine
end

section
/-! FRAME.TXALL: the Send of each transmit entry, and its payload as the OR of what the entry's slots deposit
(spec/41_frame.md R144). -/

namespace Sys2Proof.Machine

/-! ## The payload of an entry -/

/-- The raw fields the slots of a list deposit, reads numbered from `m` (R144). -/
def slotRaws (s : State) (m : Nat) (js : List Nat) : List Word := js.mapIdx fun k j => slotRaw s (m + k) j

theorem slotRaws_cons (s : State) (m j : Nat) (js : List Nat) :
    slotRaws s m (j :: js) = slotRaw s m j :: slotRaws s (m + 1) js := by
  simp [slotRaws, Nat.add_assoc, Nat.add_comm 1]

theorem getElem?_slotRaws {s : State} {js : List Nat} {k j : Nat} (m : Nat) (h : js[k]? = some j) :
    (slotRaws s m js)[k]? = some (slotRaw s (m + k) j) := by
  rw [slotRaws, List.getElem?_mapIdx, h, Option.map_some]

/-- R103, R144: each bit of an entry's payload is the OR of what its slots deposit there. -/
theorem getLsbD_entryPayload {s : State} {js : List Nat} (hfit : ∀ j ∈ js, fieldFits (s.slot j).field) (m : Nat)
    (p : Payload) {q : Nat} (hq : q < 64) :
    (entryPayload s m js p).getLsbD q =
      (p.getLsbD q || (js.zip (slotRaws s m js)).any fun x => bitDeposited (s.slot x.1).field x.2 q) := by
  induction js generalizing m p with
  | nil => simp [entryPayload]
  | cons j js ih =>
    obtain ⟨hj, hjs⟩ := List.forall_mem_cons.mp hfit
    rw [entryPayload, ih hjs, getLsbD_putOr (wf_of_fieldFits hj) _ _ hq, slotRaws_cons, List.zip_cons_cons,
      List.any_cons, Bool.or_assoc]

/-! ## What FRAME.TXALL answers -/

theorem exec_frameTxall_of_saveBusy {s : State} (hb : s.saveBusy = true) :
    exec .frameTxall s = .next { s with rc := 0#32 } := if_pos hb

theorem exec_frameTxall_of_no_save {s : State} (hb : s.saveBusy = false) :
    exec .frameTxall s =
      .next { s with
        events := s.events ++ entrySends s 0 (s.live .tx)
        rc := BitVec.ofNat 32 (s.count .tx)
        draws := s.draws + entryReads s (s.live .tx)
        paramAnswers := s.paramAnswers.drop (entryReads s (s.live .tx)) } := by
  rw [exec, execFrameTxall, if_neg (ne_true_of_eq_false hb)]
  rfl

theorem length_entrySends (s : State) (m : Nat) (l : List IdEntry) : (entrySends s m l).length = l.length := by
  induction l generalizing m with
  | nil => rfl
  | cons e l ih => rw [entrySends, List.length_cons, List.length_cons, ih]

/-- The `i`-th Send is that of the `i`-th entry, its reads numbered after those of the entries before it (R144). -/
theorem getElem?_entrySends {s : State} {m i : Nat} {l : List IdEntry} {e : IdEntry} (h : l[i]? = some e) :
    (entrySends s m l)[i]? = some (sendEvent s.cfg.idBuild e.id
      (entryPayload s (m + entryReads s (l.take i)) (s.slotsOf e) 0#64)) := by
  induction l generalizing m i with
  | nil => cases h
  | cons d l ih =>
    cases i with
    | zero =>
      cases h
      rfl
    | succ i =>
      rw [entrySends, List.getElem?_cons_succ, ih h, List.take_succ_cons, entryReads, Nat.add_assoc]

theorem State.MapInv.fieldFits_of_live {s : State} (h : s.MapInv) {t : Table} {i : Nat} (hi : i < s.count t) {j : Nat}
    (hj : j ∈ s.slotsOf (s.entry t i)) : fieldFits (s.slot j).field := by
  obtain ⟨-, -, -, -, -, -, -, -, -, -, -, -, -, hslots⟩ := h
  obtain ⟨hfit, -⟩ := hslots j (State.mem_mapped.mpr ⟨t, _, State.mem_live.mpr ⟨i, hi, rfl⟩, hj⟩)
  exact hfit

/-- Settles O40: the `i`-th Send carries the payload of the `i`-th entry, whose bits are those its slots deposit. -/
theorem frameTxallSendsEveryEntry : Obligations.FrameTxallSendsEveryEntry := by
  intro s
  refine ⟨exec_frameTxall_of_saveBusy, fun hinv hb => ⟨_, _, _, exec_frameTxall_of_no_save hb, ?_, fun i hi => ?_⟩⟩
  · rw [length_entrySends, s.live_length]
  · have hreads : 0 + entryReads s ((s.live .tx).take i) =
        (((s.live .tx).take i).map fun e => (s.slotsOf e).length).sum := by rw [Nat.zero_add, entryReads_eq_sum]
    rw [getElem?_entrySends (s.live_getElem? .tx hi), hreads]
    generalize (((s.live .tx).take i).map fun e => (s.slotsOf e).length).sum = r
    exact ⟨_, slotRaws s r (s.slotsOf (s.entry .tx i)), rfl, List.length_mapIdx,
      fun m j hj => ⟨s.oobDraw (r + m), getElem?_slotRaws r hj⟩,
      fun q hq => (getLsbD_entryPayload (fun j hj => hinv.fieldFits_of_live hi hj) r 0#64 hq).trans (by simp)⟩

end Sys2Proof.Machine
end

section
/-! MAP.ADDRX and MAP.ADDTX: what they reject, and the entry and the cell a binding takes
(spec/42_map_admin.md R170 to R173). -/

namespace Sys2Proof.Machine

/-! ## What is rejected -/

/-- `validate` makes the checks of R170, in its order. -/
theorem bindingError_eq_validate (c : Params) (b : Binding) : bindingError c b = validate c b := by
  have hsign : b.nb.msb = decide (b.nb.toInt < 0) := BitVec.msb_eq_toInt
  unfold bindingError validate nbWidth sprime
  refine ite_congr (propext (by omega)) (fun _ => rfl) fun hlen =>
    ite_congr (propext (by omega)) (fun _ => rfl) fun hpos => ite_congr (propext ?_) (fun _ => rfl) fun _ =>
    ite_congr (propext ?_) (fun _ => rfl) fun _ => ?_
  · rw [hsign, decide_eq_false_iff_not]
    omega
  · rw [hsign, decide_eq_true_eq]
    omega
  · cases c.idBuild <;> rfl

section
variable {s : State} {t : Table} {b : Binding} (hb : s.saveBusy = false) (hp : b.param.toNat < s.cfg.paramLast)
include hb hp

theorem State.add_of_invalid {code : Word} (hv : validate s.cfg b = some code) : s.add t b = .error code := by
  simp [State.add, hb, hv, Nat.not_le.mpr hp]

theorem State.add_of_full (hv : validate s.cfg b = none)
    (hm : s.find t (pnum b.id) = none ∧ s.count t = s.cfg.maxMessages) : s.add t b = .error eMaxMessages := by
  simp [State.add, hb, hv, hm, Nat.not_le.mpr hp]

section
variable (hv : validate s.cfg b = none) (hroom : ¬(s.find t (pnum b.id) = none ∧ s.count t = s.cfg.maxMessages))
include hv hroom

theorem State.add_of_no_cell (hcell : s.freeCell = none) : s.add t b = .error eMaxItems := by
  unfold State.add
  rw [if_neg (ne_true_of_eq_false hb), if_neg (Nat.not_le.mpr hp), hv]
  exact (if_neg hroom).trans (by rw [hcell])

theorem State.add_of_cell {j : Nat} (hcell : s.freeCell = some j) :
    s.add t b = .done (s.link t b (s.find t (pnum b.id)) j) := by
  unfold State.add
  rw [if_neg (ne_true_of_eq_false hb), if_neg (Nat.not_le.mpr hp), hv]
  exact (if_neg hroom).trans (by rw [hcell])

end

end

/-- Settles O41, by `bindingError_eq_validate`. -/
theorem invalidBindingsAreRejected : Obligations.InvalidBindingsAreRejected := by
  intro t b s code hb hp hv
  rw [bindingError_eq_validate] at hv
  exact exec_addCmd_of_error (State.add_of_invalid hb hp hv)

theorem State.freeCell_eq_none {s : State} (h : ∀ j < s.cfg.maxItems, (s.slot j).next ≠ itemUnset) :
    s.freeCell = none := by
  refine List.findIdx?_eq_none_iff.mpr fun c hc => ?_
  obtain ⟨j, hj, rfl⟩ := List.mem_iff_getElem.mp hc
  rw [List.length_take] at hj
  have hused := h j (by omega)
  rw [State.slot, List.getElem?_eq_getElem (by omega)] at hused
  simpa using hused

theorem State.freeCell_eq_some {s : State} {j : Nat} (hlen : s.pool.length = s.cfg.maxItems + 1)
    (hj : j < s.cfg.maxItems) (hfree : (s.slot j).next = itemUnset) (hleast : ∀ k < j, (s.slot k).next ≠ itemUnset) :
    s.freeCell = some j := by
  obtain ⟨-, hnone⟩ | ⟨k, -, hk, hkfree, hkleast⟩ := s.freeCell_cases hlen
  · exact absurd hfree (hnone j hj)
  · have hjk : ¬j < k := fun hlt => hkleast j hlt hfree
    have hkj : ¬k < j := fun hlt => hleast k hlt hkfree
    rw [hk, Nat.le_antisymm (Nat.not_lt.mp hjk) (Nat.not_lt.mp hkj)]

/-- Settles O42: `find` tells whether the id is new, `freeCell` whether a cell is free. -/
theorem capacityErrors : Obligations.CapacityErrors := by
  intro t b s hb hp hv
  rw [bindingError_eq_validate] at hv
  refine ⟨fun hnew hfull => ?_, fun hroom hused => ?_⟩
  · exact exec_addCmd_of_error (State.add_of_full hb hp hv ⟨State.find_eq_none hnew, hfull⟩)
  · have hm : ¬(s.find t (pnum b.id) = none ∧ s.count t = s.cfg.maxMessages) := by
      rintro ⟨hnone, hfull⟩
      obtain ⟨-, hnew⟩ | ⟨i, -, hsome, -⟩ := s.find_cases t (pnum b.id)
      · obtain ⟨i, hi, hid⟩ := hroom.resolve_right (not_not.mpr hfull)
        exact hnew i hi hid
      · cases hnone.symm.trans hsome
    exact exec_addCmd_of_error (State.add_of_no_cell hb hp hv hm (State.freeCell_eq_none hused))

/-! ## What is answered -/

/-- An edited map, reported: everything outside the map, `RC` and the events is as it was. -/
theorem State.SameOutsideMap.report {s u : State} (h : s.SameOutsideMap u) (v : Word) (es : List Event) :
    (u.setRc v).emit es =
      { s with rc := v, events := s.events ++ es, txm := u.txm, rxm := u.rxm, pool := u.pool } := by
  rw [h]
  rfl

theorem State.SameOutsideMap.cfg_eq {s u : State} (h : s.SameOutsideMap u) : u.cfg = s.cfg := by rw [h]

@[simp] theorem State.entry_setRc (s : State) (v : Word) (t : Table) (i : Nat) :
    (s.setRc v).entry t i = s.entry t i := rfl

@[simp] theorem State.count_setRc (s : State) (v : Word) (t : Table) : (s.setRc v).count t = s.count t := rfl

@[simp] theorem State.slot_setRc (s : State) (v : Word) (j : Nat) : (s.setRc v).slot j = s.slot j := rfl

@[simp] theorem State.slotsOf_setRc (s : State) (v : Word) (e : IdEntry) : (s.setRc v).slotsOf e = s.slotsOf e :=
  State.slotsOf_congr (s := s) (t := s.setRc v) rfl rfl e

@[simp] theorem State.entry_emit (s : State) (es : List Event) (t : Table) (i : Nat) :
    (s.emit es).entry t i = s.entry t i := rfl

@[simp] theorem State.count_emit (s : State) (es : List Event) (t : Table) : (s.emit es).count t = s.count t := rfl

@[simp] theorem State.slot_emit (s : State) (es : List Event) (j : Nat) : (s.emit es).slot j = s.slot j := rfl

@[simp] theorem State.slotsOf_emit (s : State) (es : List Event) (e : IdEntry) :
    (s.emit es).slotsOf e = s.slotsOf e :=
  State.slotsOf_congr (s := s) (t := s.emit es) rfl rfl e

/-- A valid binding is linked into the lowest free cell. -/
theorem exec_addCmd_of_cell {s : State} {t : Table} {b : Binding} {i : Option Nat} {j : Nat}
    (hlen : s.pool.length = s.cfg.maxItems + 1) (hb : s.saveBusy = false) (hp : b.param.toNat < s.cfg.paramLast)
    (hv : validate s.cfg b = none) (hfind : s.find t (pnum b.id) = i)
    (hroom : ¬(i = none ∧ s.count t = s.cfg.maxMessages)) (hj : j < s.cfg.maxItems)
    (hfree : (s.slot j).next = itemUnset) (hleast : ∀ k < j, (s.slot k).next ≠ itemUnset) :
    exec (addCmd t b) s = .next
      (((s.link t b i j).setRc (BitVec.ofNat 32 ((s.link t b i j).count t))).emit (addEvents t b)) := by
  subst hfind
  exact exec_addCmd_of_done (State.add_of_cell hb hp hv hroom (State.freeCell_eq_some hlen hj hfree hleast))

/-! ## A new entry -/

theorem storedId_eq_or_shift (k : IdBuild) (a : Word) :
    storedId k a = pnum a ||| (if a.getLsbD 29 then 1#32 <<< forceBit k else 0#32) := by
  cases k <;> rfl

theorem State.entry_link_none {s : State} {t : Table} {b : Binding} {j : Nat} (h : s.count t < (s.table t).length) :
    (s.link t b none j).entry t (s.count t) = newEntry s.cfg b j := by
  simp [State.link, State.entry_setTable_same, h, newEntry]

theorem State.entry_link_none_ne {s : State} {t : Table} {b : Binding} {i j : Nat} (h : i ≠ s.count t) :
    (s.link t b none j).entry t i = s.entry t i := by
  simp [State.link, State.entry, h.symm]

theorem State.slotsOf_newEntry {s : State} {t : Table} {b : Binding} {j : Nat} (hwf : s.cfg.wf = true)
    (hj : j < s.cfg.maxItems) (hpool : j < s.pool.length) :
    (s.link t b none j).slotsOf (newEntry s.cfg b j) = [j] := by
  have hle := Params.maxItems_le hwf
  have hcfg := (s.sameLengths_link t b none j).1
  obtain ⟨hcell, -⟩ := State.link_none_slots (t := t) (b := b) hpool
  refine State.Path.slotsOf_eq ⟨toNat_ofNat_first (by omega), hcfg ▸ hj, ?_⟩ (List.nodup_singleton j)
  rw [hcell, hcfg]
  exact State.endLink_toNat hwf

/-- Settles O43: the binding is linked as a new entry at the end of its table. -/
theorem addMakesANewEntry : Obligations.AddMakesANewEntry := by
  intro t b s j hinv hb hp hv hnew hroom hj hfree hleast
  rw [bindingError_eq_validate] at hv
  have hon := State.mapOn_of_mapInv hinv t
  have hnone : s.find t (pnum b.id) = none := State.find_eq_none hnew
  obtain ⟨hfits, hid⟩ := validate_eq_none hv
  have hfront := (hon.link_none ⟨hj, hfree, hfits, hp, hid⟩ hroom fun e he => by
    obtain ⟨i, hi, rfl⟩ := State.mem_live.mp he
    exact hnew i hi).front
  have hcount : (s.link t b none j).count t = s.count t + 1 := by
    rw [hfront.count_eq, List.length_append, s.live_length, List.length_singleton]
  have hpool : j < s.pool.length := by rw [hon.pool_length]; omega
  have hentry := State.entry_link_none (b := b) (j := j) (hon.shape.table_length t ▸ hroom)
  obtain ⟨hcell, hother⟩ := State.link_none_slots (t := t) (b := b) hpool
  refine ⟨_, exec_addCmd_of_cell hon.pool_length hb hp hv hnone (fun hm => Nat.ne_of_lt hroom hm.2) hj hfree hleast,
    ?_, ?_, ?_, ?_, ?_, fun i hi => ?_, ?_, fun c hc => ?_⟩
  · rw [(s.sameOutsideMap_link t b none j).report, hcount]
  · simpa using hcount
  · rw [State.entry_emit, State.entry_setRc, hentry, newEntry, storedId_eq_or_shift]
    rfl
  · simpa [hentry] using State.slotsOf_newEntry hon.wf hj hpool
  · exact hcell
  · exact State.entry_link_none_ne hi
  · exact s.table_link_none_other t b j
  · exact hother c hc

/-! ## A cell joined to an entry -/

theorem State.count_congr {s u : State} {t : Table} (hc : u.cfg = s.cfg) (ht : u.table t = s.table t) :
    u.count t = s.count t := by
  unfold State.count State.isEmpty
  rw [hc, ht]

theorem State.entry_congr {s u : State} {t : Table} (hc : u.cfg = s.cfg) (ht : u.table t = s.table t) {i : Nat} :
    u.entry t i = s.entry t i := by
  unfold State.entry
  rw [hc, ht]

/-- The lists of R31 repeat no cell. -/
theorem State.CellsOk.nodup_slotsOf {s : State} {l : List IdEntry} {e : IdEntry} (h : s.CellsOk (l.flatMap s.slotsOf))
    (he : e ∈ l) : (s.slotsOf e).Nodup :=
  (List.nodup_flatMap.mp h.nodup).1 e he

/-- The binding's cell follows the last cell of the entry's list, the only other cell that changes. -/
theorem State.MapOn.link_some_effect {s : State} {t : Table} {a o : List IdEntry} {b : Binding} {i j : Nat}
    (h : s.MapOn t a o) (hj : s.Admits b j) (hi : i < s.count t) :
    (s.link t b (some i) j).slotsOf (s.entry t i) = s.slotsOf (s.entry t i) ++ [j] ∧
      (s.link t b (some i) j).slot j = bindingSlot b s.endLink ∧
      ∀ c, c ≠ j → (s.link t b (some i) j).slot c =
        if (s.slotsOf (s.entry t i)).getLast? = some c then { s.slot c with next := BitVec.ofNat 8 j }
        else s.slot c := by
  have hle := Params.maxItems_le h.wf
  have hpool := h.pool_length
  have hlt := hj.lt
  have hcfg := (s.sameLengths_link t b (some i) j).1
  have hmem : s.entry t i ∈ a := h.front.live_eq ▸ State.mem_live.mpr ⟨i, hi, rfl⟩
  obtain ⟨js, last, hjs⟩ := h.exists_last hmem
  have hlast : last < s.cfg.maxItems := State.slotsOf_lt (by rw [hjs]; simp)
  have hnodup := h.lists.cells.nodup_slotsOf (List.mem_append_left o hmem)
  have hfresh : j ∉ s.slotsOf (s.entry t i) := fun hm =>
    hj.not_mem h.lists.cells (List.mem_flatMap.mpr ⟨_, List.mem_append_left o hmem, hm⟩)
  have hpath := h.lists.entries.ends _ hmem ▸ s.path_slotsOf (s.entry t i)
  rw [hjs] at hnodup hfresh hpath ⊢
  obtain ⟨hcell, hmoved, hother⟩ := State.link_some_slots (b := b) hjs hfresh (by omega) (by omega)
  refine ⟨?_, hcell, fun c hc => ?_⟩
  · have hkeep : ∀ c ∈ js, ((s.link t b (some i) j).slot c).next = (s.slot c).next := fun c hc => by
      obtain ⟨-, -, hapart⟩ := List.nodup_append.mp hnodup
      rw [hother c (fun hcj => hfresh (hcj ▸ List.mem_append_left _ hc)) (hapart c hc last (by simp))]
    have hp := hpath.append_cell hcfg hkeep (by rw [hmoved]; exact toNat_ofNat_byte (by omega)) (hcfg ▸ hlt)
    have hend : ((s.link t b (some i) j).slot j).next.toNat = (s.link t b (some i) j).cfg.maxItems := by
      rw [hcell, hcfg]
      exact State.endLink_toNat h.wf
    rw [hend, ← List.singleton_append (x := last), ← List.append_assoc] at hp
    exact hp.slotsOf_eq (List.nodup_append_comm.mp (List.nodup_cons.mpr ⟨hfresh, hnodup⟩))
  · rw [List.getLast?_concat]
    split
    · next hcl => rw [← Option.some.inj hcl, hmoved]
    · next hcl => exact hother c hc fun h => hcl (congrArg some h.symm)

/-- Settles O44: ids being distinct, the binding is linked behind the list of the entry that has its id. -/
theorem addAppendsToItsEntry : Obligations.AddAppendsToItsEntry := by
  intro t b s i j hinv hb hp hv hi hid hj hfree hleast
  rw [bindingError_eq_validate] at hv
  have hon := State.mapOn_of_mapInv hinv t
  have hsome : s.find t (pnum b.id) = some i := by
    refine State.find_eq_some ?_ hi hid
    obtain ⟨-, -, -, -, -, -, -, -, -, htx, hrx, -⟩ := hinv
    cases t
    · exact htx
    · exact hrx
  obtain ⟨hfits, hnum⟩ := validate_eq_none hv
  obtain ⟨hslots, hcell, hother⟩ := hon.link_some_effect ⟨hj, hfree, hfits, hp, hnum⟩ hi
  have hcfg := (s.sameLengths_link t b (some i) j).1
  have htab := fun u => s.table_link_some t u b i j
  refine ⟨_, exec_addCmd_of_cell hon.pool_length hb hp hv hsome (by simp) hj hfree hleast, ?_, ?_, hcell, hother⟩
  · have htx : (s.link t b (some i) j).txm = s.txm := htab .tx
    have hrx : (s.link t b (some i) j).rxm = s.rxm := htab .rx
    rw [(s.sameOutsideMap_link t b (some i) j).report, State.count_congr hcfg (htab t), htx, hrx]
  · simpa [State.entry_congr hcfg (htab t)] using hslots

end Sys2Proof.Machine
end

section
/-! MAP.RM: the slot it finds, and what taking that slot out of its list and its table changes
(spec/42_map_admin.md R174). -/

namespace Sys2Proof.Machine

/-! ## The slot found -/

theorem State.cell_findInList (s : State) (param : BitVec 16) (prev : Option Nat) (js : List Nat) :
    (s.findInList param prev js).map Prod.snd = js.find? fun c => (s.slot c).param == param := by
  induction js generalizing prev with
  | nil => rfl
  | cons j js ih =>
    by_cases h : (s.slot j).param = param
    · simp [State.findInList, h]
    · simp [State.findInList, h, ih]

theorem State.cell_findInEntries (s : State) (t : Table) (param : BitVec 16) (i : Nat) (es : List IdEntry) :
    (s.findInEntries t param i es).map SlotPlace.cell =
      (es.flatMap s.slotsOf).find? fun c => (s.slot c).param == param := by
  induction es generalizing i with
  | nil => rfl
  | cons e es ih =>
    rw [List.flatMap_cons, List.find?_append, ← s.cell_findInList param none, State.findInEntries]
    cases s.findInList param none (s.slotsOf e) with
    | none => simpa using ih (i + 1)
    | some p => rfl

/-- `findSlot` answers the first slot of the lists that names the parameter. -/
theorem State.cell_findSlot (s : State) (param : BitVec 16) :
    (s.findSlot param).map SlotPlace.cell = s.mapped.find? fun c => (s.slot c).param == param := by
  rw [State.mapped, List.flatMap_append, List.find?_append, ← s.cell_findInEntries .tx param 0,
    ← s.cell_findInEntries .rx param 0, State.findSlot]
  cases s.findInEntries .tx param 0 (s.live .tx) with
  | none => simp
  | some pl => rfl

theorem exec_mapRm_of_none {s : State} {param : BitVec 16} (hb : s.saveBusy = false) (h : s.findSlot param = none) :
    exec (.mapRm param) s = .next (s.setRc 0#32) := by
  simp [exec, execMapRm, hb, h]

theorem exec_mapRm_of_some {s : State} {param : BitVec 16} {pl : SlotPlace} (hb : s.saveBusy = false)
    (h : s.findSlot param = some pl) : exec (.mapRm param) s = .next ((s.removeSlot pl).setRc 1#32) := by
  simp [exec, execMapRm, hb, h]

/-- Settles O45: nothing is found, by `State.cell_findSlot`. -/
theorem removeOfAnUnboundParameter : Obligations.RemoveOfAnUnboundParameter := by
  intro param s hb hunbound
  refine exec_mapRm_of_none hb (Option.map_eq_none_iff.mp ((s.cell_findSlot param).trans ?_))
  simpa using hunbound

/-- `pl` is the place of a slot in the lists: its entry is live, and its cell stands behind `bs` in the entry's list. -/
structure State.Stands (s : State) (pl : SlotPlace) (bs cs : List Nat) : Prop where
  live : pl.entry < s.count pl.tbl
  list : s.slotsOf (s.entry pl.tbl pl.entry) = bs ++ pl.cell :: cs
  prev : pl.prev = bs.getLast?

theorem State.stands_of_find {s : State} {param : BitVec 16} {j : Nat}
    (h : s.mapped.find? (fun c => (s.slot c).param == param) = some j) :
    ∃ pl bs cs, s.findSlot param = some pl ∧ pl.cell = j ∧ s.Stands pl bs cs := by
  obtain ⟨pl, hpl, hcell⟩ := Option.map_eq_some_iff.mp ((s.cell_findSlot param).trans h)
  obtain ⟨x, e, y, bs, cs, hlive, hentry, hjs, hprev⟩ := State.findSlot_some hpl
  have hlt : pl.entry < s.count pl.tbl := by
    rw [← s.live_length, hlive, hentry]
    simp
  have he : s.entry pl.tbl pl.entry = e := by
    have hget := s.live_getElem? pl.tbl hlt
    rw [hlive, hentry] at hget
    simpa [hentry] using hget.symm
  exact ⟨pl, bs, cs, hpl, hcell, hlt, he ▸ hjs, hprev⟩

/-! ## Lists apart -/

theorem State.MapInv.mem_mapped_iff {s : State} (h : s.MapInv) {c : Nat} :
    c ∈ s.mapped ↔ c < s.cfg.maxItems ∧ (s.slot c).next ≠ itemUnset := by
  have hcells := (State.mapOn_of_mapInv h .tx).lists.cells
  exact ⟨fun hc => ⟨State.mapped_lt hc, (hcells.mem_iff c (State.mapped_lt hc)).mp hc⟩,
    fun ⟨hlt, hc⟩ => (hcells.mem_iff c hlt).mpr hc⟩

theorem State.MapInv.nodup_mapped {s : State} (h : s.MapInv) : s.mapped.Nodup :=
  (State.mapOn_of_mapInv h .tx).lists.cells.nodup

theorem State.mem_mapped_of_entry {s : State} {t : Table} {i c : Nat} (hi : i < s.count t)
    (hc : c ∈ s.slotsOf (s.entry t i)) : c ∈ s.mapped :=
  State.mem_mapped.mpr ⟨t, _, State.mem_live.mpr ⟨i, hi, rfl⟩, hc⟩

/-- A cell is in the list of one entry only (R31(d)). -/
theorem State.MapInv.entry_unique {s : State} (h : s.MapInv) {t u : Table} {i k c : Nat} (hi : i < s.count t)
    (hk : k < s.count u) (hci : c ∈ s.slotsOf (s.entry t i)) (hck : c ∈ s.slotsOf (s.entry u k)) :
    (u, k) = (t, i) := by
  have hcells := (State.mapOn_of_mapInv h t).lists.cells
  obtain ⟨hsame, -, hcross⟩ := List.pairwise_append.mp (List.nodup_flatMap.mp hcells.nodup).2
  by_cases htu : u = t
  · subst htu
    have hapart : ∀ {m n : Nat}, m < n → n < s.count u → c ∈ s.slotsOf (s.entry u m) →
        c ∉ s.slotsOf (s.entry u n) := fun hmn hn hm hcn => by
      obtain ⟨hlm, hem⟩ := List.getElem?_eq_some_iff.mp (s.live_getElem? u (Nat.lt_trans hmn hn))
      obtain ⟨hln, hen⟩ := List.getElem?_eq_some_iff.mp (s.live_getElem? u hn)
      exact List.pairwise_iff_getElem.mp hsame _ _ hlm hln hmn (hem ▸ hm) (hen ▸ hcn)
    have hik : ¬i < k := fun hlt => hapart hlt hk hci hck
    have hki : ¬k < i := fun hlt => hapart hlt hi hck hci
    rw [Nat.le_antisymm (Nat.not_lt.mp hik) (Nat.not_lt.mp hki)]
  · obtain rfl : u = otherTable t := by cases t <;> cases u <;> simp [otherTable] at htu ⊢
    exact absurd hck
      (hcross _ (State.mem_live.mpr ⟨i, hi, rfl⟩) _ (State.mem_live.mpr ⟨k, hk, rfl⟩) hci)

theorem State.live_eq_take_append_drop {s : State} {t : Table} {i : Nat} (hi : i < s.count t) :
    s.live t = (s.live t).take i ++ s.entry t i :: (s.live t).drop (i + 1) := by
  obtain ⟨hlt, hget⟩ := List.getElem?_eq_some_iff.mp (s.live_getElem? t hi)
  rw [← hget, List.cons_getElem_drop_succ, List.take_append_drop]

/-! ## What unlinking changes -/

theorem State.Stands.mem_mapped {s : State} {pl : SlotPlace} {bs cs : List Nat} (h : s.Stands pl bs cs) {c : Nat}
    (hc : c ∈ bs ++ pl.cell :: cs) : c ∈ s.mapped :=
  State.mem_mapped_of_entry h.live (h.list ▸ hc)

theorem State.entry_unlink_ne {s : State} {pl : SlotPlace} {t : Table} {i : Nat} (h : (t, i) ≠ (pl.tbl, pl.entry)) :
    (s.unlink pl).entry t i = s.entry t i := by
  unfold State.unlink
  cases pl.prev with
  | some q => simp
  | none =>
    by_cases ht : t = pl.tbl
    · subst ht
      have hi : pl.entry ≠ i := fun hi => h (by rw [hi])
      simp [State.entry, hi]
    · simp [State.entry_setTable_ne ht]

/-- Unlinking changes at most the first link of its own entry. -/
theorem State.entry_unlink_relinked (s : State) (pl : SlotPlace) (t : Table) (i : Nat) :
    (s.unlink pl).entry t i = { s.entry t i with first := ((s.unlink pl).entry t i).first } := by
  by_cases h : (t, i) = (pl.tbl, pl.entry)
  · obtain ⟨rfl, rfl⟩ := Prod.mk.inj h
    unfold State.unlink
    cases pl.prev with
    | some q => simp
    | none =>
      by_cases hlt : pl.entry < (s.table pl.tbl).length
      · simp [State.entry, hlt]
      · simp [State.entry, hlt]
  · rw [State.entry_unlink_ne h]

theorem State.id_entry_unlink (s : State) (pl : SlotPlace) (t : Table) (i : Nat) :
    ((s.unlink pl).entry t i).id = (s.entry t i).id := by
  rw [s.entry_unlink_relinked]

theorem State.table_unlink_other (s : State) (pl : SlotPlace) :
    (s.unlink pl).table (otherTable pl.tbl) = s.table (otherTable pl.tbl) := by
  unfold State.unlink
  cases pl.prev with
  | some q => simp
  | none => simpa using s.table_setTable_ne (otherTable_ne pl.tbl) _

section
variable {s : State} {pl : SlotPlace} {bs cs : List Nat} (hinv : s.MapInv) (h : s.Stands pl bs cs)
include hinv h

theorem State.Stands.entry_unique {t : Table} {i : Nat} (hi : i < s.count t)
    (hmem : pl.cell ∈ s.slotsOf (s.entry t i)) : (t, i) = (pl.tbl, pl.entry) :=
  hinv.entry_unique h.live hi (h.list ▸ by simp) hmem

theorem State.Stands.nodup : (bs ++ pl.cell :: cs).Nodup :=
  h.list ▸ (State.mapOn_of_mapInv hinv pl.tbl).lists.cells.nodup_slotsOf
    (List.mem_append_left _ (State.mem_live.mpr ⟨_, h.live, rfl⟩))

/-- The cell is freed, and no other cell changes but in its link. -/
theorem State.Stands.slot_unlink :
    (s.unlink pl).slot pl.cell = { s.slot pl.cell with next := itemUnset } ∧
      (∀ c, c ≠ pl.cell → s.Relinks (s.unlink pl) c) ∧
      ∀ c ∉ bs ++ pl.cell :: cs, (s.unlink pl).slot c = s.slot c := by
  have hpool := (State.mapOn_of_mapInv hinv pl.tbl).pool_length
  have hused : ∀ c ∈ bs ++ pl.cell :: cs, c < s.cfg.maxItems ∧ (s.slot c).next ≠ itemUnset :=
    fun c hc => hinv.mem_mapped_iff.mp (h.mem_mapped hc)
  have hnodup := h.nodup hinv
  obtain ⟨hlt, hlink⟩ := hused pl.cell (by simp)
  rcases List.eq_nil_or_concat' bs with rfl | ⟨bs, q, rfl⟩
  · obtain ⟨hfree, hother⟩ := State.slots_unlink_first h.prev (by omega : pl.cell < s.pool.length)
    exact ⟨hfree, fun c hc => State.relinks_of_eq (hother c hc), fun c hc => hother c fun hcj => hc (by simp [hcj])⟩
  · obtain ⟨hq, hqlink⟩ := hused q (by simp)
    obtain ⟨-, -, hapart⟩ := List.nodup_append.mp hnodup
    have hqj : q ≠ pl.cell := hapart q (by simp) _ List.mem_cons_self
    obtain ⟨hfree, hmoved, hother⟩ :=
      State.slots_unlink_behind (h.prev.trans List.getLast?_concat) hqj (by omega : pl.cell < s.pool.length) (by omega)
    refine ⟨hfree, fun c hc => ?_, fun c hc => hother c (fun hcj => hc (by simp [hcj])) fun hcq => hc (by simp [hcq])⟩
    by_cases hcq : c = q
    · subst hcq
      exact ⟨by rw [hmoved], by rw [hmoved]; exact iff_of_false hlink hqlink⟩
    · exact State.relinks_of_eq (hother c hc hcq)

/-- The entry's list is the old one without the cell, and ends. -/
theorem State.Stands.list_unlink :
    (s.unlink pl).slotsOf ((s.unlink pl).entry pl.tbl pl.entry) = bs ++ cs ∧
      ((s.unlink pl).isEmpty ((s.unlink pl).entry pl.tbl pl.entry) = true ↔ bs ++ cs = []) := by
  have hlt : pl.entry < (s.live pl.tbl).length := s.live_length pl.tbl ▸ h.live
  have hon := State.mapOn_of_mapInv hinv pl.tbl
  rw [State.live_eq_take_append_drop h.live] at hon
  obtain ⟨b, htab, -⟩ := hon.front
  rw [List.append_assoc] at htab
  have hentry : pl.entry = ((s.live pl.tbl).take pl.entry).length := by rw [List.length_take]; omega
  obtain ⟨e', htab', -, -, hlists, hslots⟩ := hon.unlink hentry h.list h.prev
  have he' : (s.unlink pl).entry pl.tbl pl.entry = e' := by
    rw [State.entry, htab' _ htab, List.getElem?_append_right hentry.ge, ← hentry]
    simp
  rw [he', ← hslots]
  exact ⟨rfl, State.isEmpty_iff_slotsOf_eq_nil (hlists.entries.ends e' List.mem_cons_self)⟩

theorem State.Stands.removeSlot_of_ne_nil (hne : bs ++ cs ≠ []) : s.removeSlot pl = s.unlink pl :=
  if_neg (mt (h.list_unlink hinv).2.mp hne)

theorem State.Stands.removeSlot_of_nil (hnil : bs ++ cs = []) :
    s.removeSlot pl = (s.unlink pl).compact pl.tbl pl.entry (s.count pl.tbl) :=
  if_pos ((h.list_unlink hinv).2.mpr hnil)

end

theorem State.slot_removeSlot (s : State) (pl : SlotPlace) (c : Nat) :
    (s.removeSlot pl).slot c = (s.unlink pl).slot c := by
  unfold State.removeSlot
  dsimp only
  split
  · exact State.slot_setTable _ _ _ _
  · rfl

theorem State.mapped_setRc (s : State) (v : Word) : (s.setRc v).mapped = s.mapped := by
  have hslots : (s.setRc v).slotsOf = s.slotsOf := funext (State.slotsOf_congr (t := s.setRc v) rfl rfl)
  unfold State.mapped
  rw [hslots]
  rfl

/-- Settles O46: R31 holds before and after, so the slots in the lists are the cells that are not free. -/
theorem removeFreesTheFirstSlot : Obligations.RemoveFreesTheFirstSlot := by
  intro param s j hinv hb hfind
  obtain ⟨pl, bs, cs, hpl, rfl, hst⟩ := State.stands_of_find hfind
  obtain ⟨hfree, hrelinks, -⟩ := hst.slot_unlink hinv
  have hslot := s.slot_removeSlot pl
  have hcfg : (s.removeSlot pl).cfg = s.cfg := (s.sameOutsideMap_removeSlot pl).cfg_eq
  refine ⟨_, exec_mapRm_of_some hb hpl, ?_, (hslot _).trans hfree, ?_, fun c hc => ?_⟩
  · simpa using (s.sameOutsideMap_removeSlot pl).report 1#32 []
  · have hinv' := State.mapInv_removeSlot hinv hpl
    rw [State.mapped_setRc]
    refine (List.perm_ext_iff_of_nodup hinv'.nodup_mapped (hinv.nodup_mapped.erase _)).mpr fun c => ?_
    rw [hinv.nodup_mapped.mem_erase_iff, hinv'.mem_mapped_iff, hinv.mem_mapped_iff, hcfg, hslot]
    by_cases hc : c = pl.cell
    · simp [hc, hfree]
    · simp [hc, (hrelinks c hc).2]
  · exact (hslot c).trans ((hrelinks c hc).1.trans (by rw [← hslot]; rfl))

/-! ## The tables afterwards -/

theorem State.MapInv.isEmpty_entry {s : State} (h : s.MapInv) {t : Table} {k : Nat} (hk : k < s.cfg.maxMessages) :
    s.isEmpty (s.entry t k) = decide (s.count t ≤ k) := by
  have hon := State.mapOn_of_mapInv h t
  exact hon.front.dense (hon.shape.table_length t) k hk

theorem State.MapInv.count_le {s : State} (h : s.MapInv) (t : Table) : s.count t ≤ s.cfg.maxMessages :=
  (State.mapOn_of_mapInv h t).shape.table_length t ▸ State.count_le s t

/-- The count of a table is the place of its first empty entry (R31(a)). -/
theorem State.MapInv.count_eq {s : State} (h : s.MapInv) {t : Table} {n : Nat} (hn : n ≤ s.cfg.maxMessages)
    (hfull : ∀ k < n, s.isEmpty (s.entry t k) = false)
    (hempty : n < s.cfg.maxMessages → s.isEmpty (s.entry t n) = true) : s.count t = n := by
  have hle := h.count_le t
  have hge : ¬s.count t < n := fun hlt => by
    have hlive := hfull _ hlt
    rw [h.isEmpty_entry (by omega), decide_eq_false_iff_not] at hlive
    exact hlive (Nat.le_refl _)
  have hgt : ¬n < s.count t := fun hlt => by
    have hdead := hempty (by omega)
    rw [h.isEmpty_entry (by omega), decide_eq_true_eq] at hdead
    omega
  omega

theorem State.isEmpty_congr {s u : State} (hc : u.cfg = s.cfg) (e : IdEntry) : u.isEmpty e = s.isEmpty e := by
  unfold State.isEmpty
  rw [hc]

/-- Where the entry keeps another slot, no entry becomes empty. -/
theorem State.Stands.count_unlink {s : State} {pl : SlotPlace} {bs cs : List Nat} (hinv : s.MapInv)
    (h : s.Stands pl bs cs) (hne : bs ++ cs ≠ []) (hinv' : (s.unlink pl).MapInv) (t : Table) :
    (s.unlink pl).count t = s.count t := by
  have hcfg := (s.sameOutsideMap_unlink pl).cfg_eq
  have hsame : ∀ k < s.cfg.maxMessages,
      (s.unlink pl).isEmpty ((s.unlink pl).entry t k) = decide (s.count t ≤ k) := fun k hk => by
    by_cases hplace : (t, k) = (pl.tbl, pl.entry)
    · obtain ⟨rfl, rfl⟩ := Prod.mk.inj hplace
      rw [decide_eq_false (Nat.not_le.mpr h.live)]
      exact Bool.eq_false_of_not_eq_true (mt (h.list_unlink hinv).2.mp hne)
    · rw [State.entry_unlink_ne hplace, State.isEmpty_congr hcfg, hinv.isEmpty_entry hk]
  have hle := hinv.count_le t
  refine hinv'.count_eq (hcfg ▸ hle) (fun k hk => ?_) fun hlt => ?_
  · rw [hsame k (by omega), decide_eq_false (Nat.not_le.mpr hk)]
  · rw [hsame _ (hcfg ▸ hlt), decide_eq_true (Nat.le_refl _)]

/-- Settles O47: the cell is unlinked, and only its own list held it. -/
theorem removeUnlinksWithinAList : Obligations.RemoveUnlinksWithinAList := by
  intro param s t i j hinv hb hfind hi hmem hlen
  obtain ⟨pl, bs, cs, hpl, rfl, hst⟩ := State.stands_of_find hfind
  obtain ⟨rfl, rfl⟩ := Prod.mk.inj (hst.entry_unique hinv hi hmem)
  rw [hst.list] at hlen ⊢
  have hne : bs ++ cs ≠ [] := by
    rw [← List.length_pos_iff, List.length_append]
    rw [List.length_append, List.length_cons] at hlen
    omega
  have hexec := exec_mapRm_of_some hb hpl
  have hinv' := State.mapInv_removeSlot hinv hpl
  rw [hst.removeSlot_of_ne_nil hinv hne] at hexec hinv'
  obtain ⟨-, -, hkeep⟩ := hst.slot_unlink hinv
  refine ⟨_, hexec, ?_, hst.count_unlink hinv hne hinv', s.id_entry_unlink pl, fun t' k hplace hk => ?_⟩
  · obtain ⟨hlist, -⟩ := hst.list_unlink hinv
    obtain ⟨-, -, hapart⟩ := List.nodup_append.mp (hst.nodup hinv)
    have hbs : pl.cell ∉ bs := fun hm => hapart _ hm _ List.mem_cons_self rfl
    rw [List.erase_append_right _ hbs, List.erase_cons_head]
    simpa using hlist
  · have hlinks : ∀ c ∈ s.slotsOf (s.entry t' k), ((s.unlink pl).slot c).next = (s.slot c).next := fun c hc => by
      rw [hkeep c fun hm => hplace (hinv.entry_unique hi hk (hst.list ▸ hm) hc)]
    simpa [State.entry_unlink_ne hplace] using
      State.slotsOf_of_keeps_links (s.sameOutsideMap_unlink pl).cfg_eq hlinks

theorem State.entry_compact {s : State} {t : Table} {i c : Nat} (hi : i < (s.table t).length)
    (hc : c - 1 < (s.table t).length) (k : Nat) :
    (s.compact t i c).entry t k =
      if k = c - 1 then { s.entry t (c - 1) with first := BitVec.ofNat 16 s.cfg.maxItems }
      else if k = i then s.entry t (c - 1)
      else s.entry t k := by
  unfold State.compact
  rw [State.entry_setTable_same]
  by_cases hkc : k = c - 1
  · subst hkc
    have hlen : c - 1 < (if i = c - 1 then s.table t else (s.table t).set i (s.entry t (c - 1))).length := by
      split <;> simpa using hc
    simp [hlen]
  · rw [List.getElem?_set_ne (Ne.symm hkc), if_neg hkc]
    by_cases hki : k = i
    · subst hki
      simp [hkc, hi]
    · split <;> simp [State.entry, Ne.symm hki]

/-- The entries of a table whose entry of `pl` has lost its only slot (R174). -/
theorem State.entry_compact_unlink {s : State} {pl : SlotPlace} (hinv : s.MapInv) (hlt : pl.entry < s.count pl.tbl)
    (k : Nat) :
    ((s.unlink pl).compact pl.tbl pl.entry (s.count pl.tbl)).entry pl.tbl k =
      if k = s.count pl.tbl - 1 then
        { s.entry pl.tbl (s.count pl.tbl - 1) with first := BitVec.ofNat 16 s.cfg.maxItems }
      else if k = pl.entry then s.entry pl.tbl (s.count pl.tbl - 1)
      else s.entry pl.tbl k := by
  have hlen := s.sameLengths_unlink pl
  have hcfg := hlen.1
  have htab := (hlen.shapeOk (State.mapOn_of_mapInv hinv pl.tbl).shape).table_length pl.tbl
  have hle := hinv.count_le pl.tbl
  rw [hcfg] at htab
  rw [State.entry_compact (by omega) (by omega), hcfg]
  split
  · rw [s.entry_unlink_relinked]
  · next hlast =>
    split
    · next hk => rw [State.entry_unlink_ne fun h => hlast (hk.trans (Prod.mk.inj h).2.symm)]
    · next hk => rw [State.entry_unlink_ne fun h => hk (Prod.mk.inj h).2]

/-- Settles O48: the entry's list is empty once its cell is unlinked, so the table is compacted. -/
theorem removeCompactsTheTable : Obligations.RemoveCompactsTheTable := by
  intro param s t i j hinv hb hfind hi hlist
  obtain ⟨pl, bs, cs, hpl, rfl, hst⟩ := State.stands_of_find hfind
  obtain ⟨rfl, rfl⟩ := Prod.mk.inj (hst.entry_unique hinv hi (hlist ▸ List.mem_singleton_self _))
  have hnil : bs ++ cs = [] := by
    have hlen : bs.length + (cs.length + 1) = 1 := by simpa using congrArg List.length (hst.list.symm.trans hlist)
    exact List.eq_nil_of_length_eq_zero (by rw [List.length_append]; omega)
  have hexec := exec_mapRm_of_some hb hpl
  have hinv' := State.mapInv_removeSlot hinv hpl
  have hcfg : (s.removeSlot pl).cfg = s.cfg := (s.sameOutsideMap_removeSlot pl).cfg_eq
  have hentry := State.entry_compact_unlink hinv hi
  have hle := hinv.count_le pl.tbl
  rw [← hst.removeSlot_of_nil hinv hnil] at hentry
  refine ⟨_, hexec, ?_, fun hne => ?_, ?_, fun k hk hk' => ?_, ?_⟩
  · refine hinv'.count_eq (by rw [hcfg]; omega) (fun k hk => ?_) fun _ => ?_
    · rw [State.isEmpty_congr hcfg, hentry, if_neg (Nat.ne_of_lt hk)]
      split <;> rw [hinv.isEmpty_entry (by omega), decide_eq_false (by omega)]
    · rw [hentry, if_pos rfl]
      exact State.isEmpty_of_first (hcfg ▸ (State.mapOn_of_mapInv hinv pl.tbl).wf) (by rw [hcfg])
  · rw [State.entry_setRc, hentry, if_neg hne, if_pos rfl]
  · rw [State.entry_setRc, hentry, if_pos rfl]
  · rw [State.entry_setRc, hentry, if_neg hk', if_neg hk]
  · rw [hst.removeSlot_of_nil hinv hnil]
    exact ((s.unlink pl).table_compact_other _ _ _).trans (s.table_unlink_other pl)

end Sys2Proof.Machine
end

section
/-! MAP.CLR and the commands that read the map back: MAP.REREG, MAP.RDE and MAP.RDS
(spec/42_map_admin.md R175 to R178). -/

namespace Sys2Proof.Machine

/-! ## The map cleared -/

theorem State.table_clearMap (s : State) (t : Table) :
    s.clearMap.table t = (s.table t).map fun e => { e with first := BitVec.ofNat 16 s.cfg.maxItems } := by
  cases t <;> rfl

theorem State.count_clearMap {s : State} (hwf : s.cfg.wf = true) (t : Table) : s.clearMap.count t = 0 := by
  refine List.countP_eq_zero.mpr fun e he => ?_
  rw [s.table_clearMap] at he
  obtain ⟨e0, -, rfl⟩ := List.mem_map.mp he
  simpa using State.isEmpty_of_first (s := s.clearMap) hwf rfl

theorem State.entry_clearMap {s : State} {t : Table} {i : Nat} (h : i < (s.table t).length) :
    s.clearMap.entry t i = { s.entry t i with first := BitVec.ofNat 16 s.cfg.maxItems } := by
  simp [State.entry, s.table_clearMap, h]

theorem exec_mapClr_of_saveBusy {s : State} (hb : s.saveBusy = true) :
    exec .mapClr s = .next (s.raise .mutateWhileSaving) := if_pos hb

theorem exec_mapClr_of_no_save {s : State} (hb : s.saveBusy = false) :
    exec .mapClr s = .next (s.clearMap.setRc 0#32) := if_neg (ne_true_of_eq_false hb)

/-- Settles O49, by what `clearMap` does to each entry and each cell. -/
theorem clearEmptiesTheMap : Obligations.ClearEmptiesTheMap := by
  refine fun s => ⟨exec_mapClr_of_saveBusy, fun hinv hb => ?_⟩
  have hon := State.mapOn_of_mapInv hinv .tx
  have hlen : s.cfg.maxItems ≤ s.pool.length := by rw [hon.pool_length]; omega
  exact ⟨_, exec_mapClr_of_no_save hb, rfl, State.count_clearMap hon.wf,
    fun t i hi => State.entry_clearMap ((hon.shape.table_length t).symm ▸ hi),
    fun j hj => State.slot_clearMap_lt hlen hj, State.slot_clearMap_ge hlen (Nat.le_refl _)⟩

/-! ## What is read back -/

/-- Settles O50: the events are the live receive entries' ids in the public form. -/
theorem reregisterAnnouncesEveryId : Obligations.ReregisterAnnouncesEveryId := by
  intro s
  refine ⟨(s.live .rx).map fun e => .filter (pubId s.cfg.idBuild e.id), rfl, ?_,
    fun i hi => ⟨pubId s.cfg.idBuild (s.entry .rx i).id, ?_, ?_⟩⟩
  · rw [List.length_map, s.live_length]
  · rw [List.getElem?_map, s.live_getElem? .rx hi, Option.map_some]
  · cases s.cfg.idBuild <;> rfl

/-- Settles O51: the id shown is the entry's where the entry has been written. -/
theorem entryReadback : Obligations.EntryReadback := by
  intro t idx s
  refine ⟨fun h => if_pos h, fun h => ⟨s.shownId (s.entry t idx.toNat), s.draws + 1, fun hw => if_pos hw, ?_⟩⟩
  exact if_neg (Nat.not_le.mpr h)

theorem slotWordRv_read (c : Slot) :
    (slotWordRv c).extractLsb' 0 16 = c.param ∧ (slotWordRv c).extractLsb' 16 8 = c.next ∧
      (slotWordRv c).extractLsb' 24 8 = c.nb := by
  simp (disch := omega) only [slotWordRv, BitVec.extractLsb'_append_eq_of_le, BitVec.extractLsb'_append_eq_of_add_le,
    Nat.reduceSub, BitVec.extractLsb'_eq_self, and_self]

theorem slotWordRp_read (c : Slot) :
    (slotWordRp c).extractLsb' 0 8 = c.bpos ∧ (slotWordRp c).extractLsb' 8 8 = c.ofs ∧
      (slotWordRp c).getLsbD 16 = c.sg := by
  have hsg : (slotWordRp c).getLsbD 16 = c.sg := by
    rw [slotWordRp, BitVec.getLsbD_setWidth, BitVec.getLsbD_append, BitVec.getLsbD_append]
    cases c.sg <;> rfl
  rw [hsg]
  simp (disch := omega) only [slotWordRp, BitVec.extractLsb'_setWidth_of_le, BitVec.extractLsb'_append_eq_of_le,
    BitVec.extractLsb'_append_eq_of_add_le, Nat.reduceSub, BitVec.extractLsb'_eq_self, and_self]

theorem toNat_slotWordRp_lt (c : Slot) : (slotWordRp c).toNat < 2 ^ 17 := by
  rw [slotWordRp, BitVec.toNat_setWidth_of_le (by decide)]
  exact BitVec.isLt _

@[simp] theorem State.next_shownSlot (s : State) (c : Slot) : (s.shownSlot c).next = c.next := by
  unfold State.shownSlot
  dsimp only
  split
  · split <;> rfl
  · rfl

/-- A written slot is shown as it is, up to `param`, which only a save in progress hides (R41). -/
theorem State.shownSlot_of_written {s : State} {c : Slot} (h : c.written = true) :
    s.shownSlot c = { c with param := (s.shownSlot c).param } ∧
      (s.saveBusy = false → (s.shownSlot c).param = c.param) := by
  unfold State.shownSlot
  rw [if_pos h]
  cases s.saveBusy with
  | true => exact ⟨rfl, nofun⟩
  | false => exact ⟨rfl, fun _ => rfl⟩

theorem exec_mapRds_of_le {s : State} {idx : BitVec 16} (h : idx.toNat ≤ s.cfg.maxItems) :
    exec (.mapRds idx) s = .next { s with
      rv := slotWordRv (s.shownSlot (s.slot idx.toNat))
      rp := slotWordRp (s.shownSlot (s.slot idx.toNat))
      rf := (s.shownSlot (s.slot idx.toNat)).gain
      rc := 0#32
      draws := s.draws + 2 } :=
  if_neg (Nat.not_lt.mpr h)

/-- Settles O52, from the fields of the slot shown. -/
theorem slotReadback : Obligations.SlotReadback := by
  intro idx s
  refine ⟨fun h => if_pos h, fun h => ⟨_, _, _, _, exec_mapRds_of_le h, ?_, toNat_slotWordRp_lt _, fun hw => ?_⟩⟩
  · obtain ⟨-, hnext, -⟩ := slotWordRv_read (s.shownSlot (s.slot idx.toNat))
    rw [hnext, State.next_shownSlot]
  · obtain ⟨hparam, -, hnb⟩ := slotWordRv_read (s.shownSlot (s.slot idx.toNat))
    obtain ⟨hbpos, hofs, hsg⟩ := slotWordRp_read (s.shownSlot (s.slot idx.toNat))
    obtain ⟨hshown, hidle⟩ := State.shownSlot_of_written (s := s) hw
    rw [hparam, hnb, hbpos, hofs, hsg]
    refine ⟨?_, ?_, ?_, ?_, ?_, hidle⟩
    all_goals rw [hshown]

end Sys2Proof.Machine
end

section
/-! CRC8.CALC and the CRC-8 register byte by byte (spec/43_pdu_crc8.md R211, R216, R221). -/

namespace Sys2Proof.Machine

/-! ## Bytes of a changed payload -/

theorem payloadByte_xor (p d : Payload) (i : Nat) : payloadByte (p ^^^ d) i = payloadByte p i ^^^ payloadByte d i :=
  BitVec.extractLsb'_xor

/-- A byte moved to place `i` of an empty payload. -/
theorem payloadByte_setWidth_shiftLeft (x : Byte) {i : Nat} (hi : i < 8) (j : Nat) :
    payloadByte (x.setWidth 64 <<< (8 * i)) j = if j = i then x else 0#8 := by
  refine BitVec.eq_of_getLsbD_eq fun b hb => ?_
  rw [payloadByte, BitVec.getLsbD_extractLsb', BitVec.getLsbD_shiftLeft, BitVec.getLsbD_setWidth, decide_eq_true hb,
    Bool.true_and]
  obtain hlt | rfl | hgt := Nat.lt_trichotomy j i
  · rw [if_neg (by omega), decide_eq_true (by omega : 8 * j + b < 8 * i)]
    simp
  · have hin : 8 * j + b < 64 := by omega
    have hlow : 8 * j + b - 8 * j = b := by omega
    rw [if_pos rfl, hlow, decide_eq_true hin, decide_eq_false (by omega : ¬8 * j + b < 8 * j),
      decide_eq_true (by omega : b < 64)]
    rfl
  · rw [if_neg (by omega), BitVec.getLsbD_of_ge x (8 * j + b - 8 * i) (by omega)]
    simp

/-- A payload bit is a bit of its byte (R9). -/
theorem one_shiftLeft_eq_byte (q : Nat) : 1#64 <<< q = (1#8 <<< (q % 8)).setWidth 64 <<< (8 * (q / 8)) := by
  have hlow : (1#8 <<< (q % 8)).setWidth 64 = 1#64 <<< (q % 8) := by
    have hmod := Nat.mod_lt q (by decide : 0 < 8)
    interval_cases q % 8 <;> decide
  rw [hlow, ← BitVec.shiftLeft_add, Nat.mod_add_div]

/-! ## The register over a list of bytes -/

/-- The bytes of `p` at the places of a list, in order, into the CRC register (R211). -/
def crcBytes (poly : Byte) (p : Payload) (c : Byte) (l : List Nat) : Byte :=
  l.foldl (fun c i => crcByte poly c (payloadByte p i)) c

theorem crcBytes_cons (poly : Byte) (p : Payload) (c : Byte) (i : Nat) (l : List Nat) :
    crcBytes poly p c (i :: l) = crcBytes poly p (crcByte poly c (payloadByte p i)) l := rfl

/-- The CRC register before and from byte `i`. -/
theorem crc8Default_eq_crcBytes (p : Payload) (init poly : Byte) {i : Nat} (hi : i < 8) :
    crc8Default p init poly =
      crcBytes poly p (crcBytes poly p init (List.range' 0 i)) (i :: List.range' (i + 1) (7 - i)) := by
  have hsplit : List.range 8 = List.range' 0 i ++ i :: List.range' (i + 1) (7 - i) := by
    interval_cases i <;> rfl
  rw [crc8Default, hsplit, List.foldl_append]
  rfl

theorem crcBytes_congr {p p' : Payload} {a n : Nat}
    (h : ∀ i, a ≤ i → i < a + n → payloadByte p' i = payloadByte p i) (poly c : Byte) :
    crcBytes poly p' c (List.range' a n) = crcBytes poly p c (List.range' a n) :=
  List.foldl_ext _ _ _ fun _ i hi => by
    obtain ⟨hlo, hhi⟩ := List.mem_range'_1.mp hi
    rw [h i hlo hhi]

theorem crcShift_eq_zero {poly c : Byte} (h : poly.getLsbD 0 = true) (hc : crcShift poly c = 0#8) : c = 0#8 := by
  unfold crcShift at hc
  split at hc
  · have hbit : (c <<< 1 ^^^ poly).getLsbD 0 = false := by rw [hc, BitVec.getLsbD_zero]
    rw [BitVec.getLsbD_xor, h, BitVec.getLsbD_shiftLeft] at hbit
    cases hbit
  · next hmsb =>
    refine BitVec.eq_of_getLsbD_eq fun b hb => ?_
    obtain rfl | hlt : b = 7 ∨ b < 7 := by omega
    · simpa [BitVec.msb_eq_getLsbD_last] using hmsb
    · have hbit : (c <<< 1).getLsbD (b + 1) = false := by rw [hc, BitVec.getLsbD_zero]
      rw [BitVec.getLsbD_zero, ← hbit, BitVec.getLsbD_shiftLeft, decide_eq_true (by omega : b + 1 < 8)]
      simp

/-- A shift of the register can be undone where the polynomial has bit 0 set. -/
theorem crcShift_injective {poly : Byte} (h : poly.getLsbD 0 = true) : Function.Injective (crcShift poly) := by
  intro c d hcd
  have hzero : crcShift poly (c ^^^ d) = 0#8 := by rw [crcShift_xor, hcd, BitVec.xor_self]
  exact BitVec.xor_eq_zero_iff.mp (crcShift_eq_zero h hzero)

theorem crcByte_eq_iff {poly : Byte} (h : poly.getLsbD 0 = true) {c d a b : Byte} :
    crcByte poly c a = crcByte poly d b ↔ c ^^^ a = d ^^^ b :=
  ((crcShift_injective h).iterate 8).eq_iff

theorem crcBytes_injective {poly : Byte} (h : poly.getLsbD 0 = true) (p : Payload) (l : List Nat) :
    Function.Injective fun c => crcBytes poly p c l := by
  induction l with
  | nil => exact fun _ _ hcd => hcd
  | cons i l ih => exact fun c d hcd => (BitVec.xor_left_inj _).mp ((crcByte_eq_iff h).mp (ih hcd))

/-! ## Changes that are seen, and changes that are not (R221) -/

/-- A change of one byte changes the CRC. -/
theorem crc8Default_xor_byte_ne {poly x : Byte} (h : poly.getLsbD 0 = true) (hx : x ≠ 0#8) (p : Payload) (init : Byte)
    {i : Nat} (hi : i < 8) :
    crc8Default (p ^^^ x.setWidth 64 <<< (8 * i)) init poly ≠ crc8Default p init poly := by
  have hbyte (j : Nat) :
      payloadByte (p ^^^ x.setWidth 64 <<< (8 * i)) j = payloadByte p j ^^^ if j = i then x else 0#8 := by
    rw [payloadByte_xor, payloadByte_setWidth_shiftLeft x hi]
  have hother {j : Nat} (hj : j ≠ i) : payloadByte (p ^^^ x.setWidth 64 <<< (8 * i)) j = payloadByte p j := by
    rw [hbyte, if_neg hj, BitVec.xor_zero]
  rw [crc8Default_eq_crcBytes _ _ _ hi, crc8Default_eq_crcBytes p _ _ hi, crcBytes_cons, crcBytes_cons,
    crcBytes_congr (a := 0) fun j _ _ => hother (by omega), crcBytes_congr (a := i + 1) fun j _ _ => hother (by omega),
    hbyte, if_pos rfl]
  intro heq
  have hbytes := (crcByte_eq_iff h).mp (crcBytes_injective h _ _ heq)
  exact hx (by simpa using hbytes)

/-- The bit of 0x01 climbs to the top of the register before the polynomial comes in. -/
theorem iterate_crcShift_one (poly : Byte) {m : Nat} (hm : m < 8) : (crcShift poly)^[m] 1#8 = 1#8 <<< m := by
  induction m with
  | zero => rfl
  | succ m ih =>
    have htop : (1#8 <<< m).msb = false := by
      have hlt : m < 7 := by omega
      interval_cases m <;> rfl
    rw [Function.iterate_succ_apply', ih (by omega), crcShift, htop,
      if_neg Bool.false_ne_true, ← BitVec.shiftLeft_add]

theorem crcByte_xor_one (poly c b : Byte) : crcByte poly c (b ^^^ 1#8) = crcByte poly c b ^^^ poly := by
  have hone : crcByte poly 0#8 1#8 = poly := by
    rw [crcByte, BitVec.zero_xor, Function.iterate_succ_apply', iterate_crcShift_one poly (by decide)]
    exact BitVec.zero_xor
  simpa [hone] using crcByte_xor poly c 0#8 b 1#8

theorem crcByte_xor_same (poly c b x : Byte) : crcByte poly (c ^^^ x) (b ^^^ x) = crcByte poly c b := by
  rw [crcByte, crcByte, byte_xor_cancel]

/-- The change 0x01 of one byte leaves the polynomial in the register, and the next byte's change takes it out. -/
theorem crc8Default_xor_one_poly (p : Payload) (init poly : Byte) {i : Nat} (hi : i < 7) :
    crc8Default (p ^^^ (1#64 <<< (8 * i) ^^^ poly.setWidth 64 <<< (8 * (i + 1)))) init poly =
      crc8Default p init poly := by
  have hbyte (j : Nat) : payloadByte (p ^^^ (1#64 <<< (8 * i) ^^^ poly.setWidth 64 <<< (8 * (i + 1)))) j =
      payloadByte p j ^^^ ((if j = i then 1#8 else 0#8) ^^^ if j = i + 1 then poly else 0#8) := by
    rw [payloadByte_xor, payloadByte_xor, payloadByte_setWidth_shiftLeft poly (by omega),
      ← payloadByte_setWidth_shiftLeft 1#8 (by omega)]
    rfl
  generalize p ^^^ (1#64 <<< (8 * i) ^^^ poly.setWidth 64 <<< (8 * (i + 1))) = p' at hbyte
  have hother {j : Nat} (hj : j ≠ i) (hj' : j ≠ i + 1) : payloadByte p' j = payloadByte p j := by
    rw [hbyte, if_neg hj, if_neg hj', BitVec.xor_zero, BitVec.xor_zero]
  have hrest : List.range' (i + 1) (7 - i) = (i + 1) :: List.range' (i + 2) (6 - i) := by
    rw [show 7 - i = 6 - i + 1 by omega, List.range'_succ]
  have hi8 : i < 8 := by omega
  rw [crc8Default_eq_crcBytes _ _ _ hi8, crc8Default_eq_crcBytes p _ _ hi8, hrest,
    crcBytes_cons, crcBytes_cons, crcBytes_cons, crcBytes_cons,
    crcBytes_congr (a := 0) fun j _ _ => hother (by omega) (by omega),
    crcBytes_congr (a := i + 2) fun j _ _ => hother (by omega) (by omega), hbyte, hbyte]
  simp [crcByte_xor_one, crcByte_xor_same]

/-- Settles O60: a changed bit is a changed byte, and the register is injective from there on. -/
theorem crcDetectsOneBitAndCollides : Obligations.CrcDetectsOneBitAndCollides := by
  refine ⟨fun p init poly q hq h => ?_, fun p init poly i hi => crc8Default_xor_one_poly p init poly hi⟩
  rw [one_shiftLeft_eq_byte]
  refine crc8Default_xor_byte_ne h ?_ p init (by omega)
  have hmod := Nat.mod_lt q (by decide : 0 < 8)
  interval_cases q % 8 <;> decide

/-! ## Polynomial 0, and what CRC8.CALC answers -/

theorem crcShift_poly_zero (c : Byte) : crcShift 0#8 c = c <<< 1 := by
  unfold crcShift
  split
  · exact BitVec.xor_zero
  · rfl

/-- With polynomial 0 every byte shifts the register empty. -/
theorem crcByte_poly_zero (c b : Byte) : crcByte 0#8 c b = 0#8 := by
  simp only [crcByte, Function.iterate_succ_apply, Function.iterate_zero_apply, crcShift_poly_zero,
    ← BitVec.shiftLeft_add]
  exact BitVec.shiftLeft_eq_zero (by decide)

theorem crc8Default_poly_zero (p : Payload) (init : Byte) : crc8Default p init 0#8 = 0#8 := by
  rw [crc8Default, List.range_succ, List.foldl_concat, crcByte_poly_zero]

theorem exec_crc8Calc (p : Payload) (init poly : Byte) (s : State) :
    exec (.crc8Calc p init poly) s = .next { s with rv := (crc8Default p init poly).setWidth 32, rc := 0#32 } := rfl

/-- Settles O59, by `crc8Default_poly_zero`: the last byte empties the register. -/
theorem crcCalcGivesTheDefaultCrc : Obligations.CrcCalcGivesTheDefaultCrc := by
  refine ⟨exec_crc8Calc, fun p init s => ?_⟩
  rw [exec_crc8Calc, crc8Default_poly_zero]
  rfl

end Sys2Proof.Machine
end

section
/-! PDU.PACK: the payload as the OR of what the elements deposit, the rolling counter, and the CRC that seals the
payload (spec/43_pdu_crc8.md R210, R213, R223). -/

namespace Sys2Proof

/-! ## The elements of a well-formed schema -/

theorem rangeFits_iff {bpos width : Nat} :
    rangeFits bpos width = true ↔ Machine.fieldFits (Machine.leField bpos width) := by
  simp [rangeFits, Machine.leField, and_assoc]

theorem Element.fieldFits_of_wf {e : Element} (h : e.wf = true) : Machine.fieldFits (Machine.elementRange e) := by
  cases e with
  | field e => exact rangeFits_iff.mp h
  | counter e =>
    obtain ⟨hfit, -⟩ := Bool.and_eq_true_iff.mp h
    exact rangeFits_iff.mp hfit
  | crc8 e => exact rangeFits_iff.mp h

theorem Schema.fieldFits_of_mem {sc : Schema} (hwf : sc.wf = true) {e : Element} (he : e ∈ sc.elems) :
    Machine.fieldFits (Machine.elementRange e) := by
  simp only [Schema.wf, Bool.and_eq_true, List.all_eq_true] at hwf
  obtain ⟨⟨⟨hall, -⟩, -⟩, -⟩ := hwf
  exact Element.fieldFits_of_wf (hall e he)

theorem Schema.fieldFits_of_crc? {sc : Schema} (hwf : sc.wf = true) {e : PduCrc} (h : sc.crc? = some e) :
    Machine.fieldFits (Machine.leField e.bpos e.width) := by
  obtain ⟨d, hd, hde⟩ := List.exists_of_findSome?_eq_some h
  cases d with
  | crc8 e' =>
    cases hde
    exact Schema.fieldFits_of_mem hwf hd
  | field _ => cases hde
  | counter _ => cases hde

/-- A counter of a well-formed schema is the one `counter?` gives, and none stands before it (R210). -/
theorem Schema.counter?_of_getElem? {sc : Schema} (hwf : sc.wf = true) {m : Nat} {e : PduCounter}
    (h : sc.elems[m]? = some (.counter e)) :
    sc.counter? = some e ∧ ∀ d ∈ sc.elems.take m, d.isCounter = false := by
  cases hc : sc.counter? with
  | none =>
    cases Schema.isCounter_of_counter?_eq_none hc _ (List.mem_of_getElem? h)
  | some c =>
    obtain ⟨-, x, y, helems, hx, hy⟩ := Schema.elems_of_counter?_eq_some hwf hc
    rw [helems] at h ⊢
    obtain hlt | hge := Nat.lt_or_ge m x.length
    · rw [List.getElem?_append_left hlt] at h
      cases hx _ (List.mem_of_getElem? h)
    · rw [List.getElem?_append_right hge] at h
      cases hm : m - x.length with
      | zero =>
        rw [hm] at h
        cases h
        rw [show m = x.length by omega, List.take_left]
        exact ⟨rfl, hx⟩
      | succ n =>
        rw [hm] at h
        cases hy _ (List.mem_of_getElem? h)

namespace Machine

/-! ## What PDU.PACK answers -/

theorem exec_pduPack_of_none {k : Byte} {s : State} (h : s.cfg.schemas[k.toNat]? = none) :
    exec (.pduPack k) s = .next { s with rc := eIndex } := by
  rw [exec, execPduPack, h]
  rfl

theorem exec_pduPack_of_schema {k : Byte} {s : State} {sc : Schema} (h : s.cfg.schemas[k.toNat]? = some sc) :
    exec (.pduPack k) s = .next { s with
      rp := sealPayload k.toNat sc (packElements s k sc).payload
      rv := sc.cid
      rc := 0#32
      pdus := s.pdus.set k.toNat { s.pdu k.toNat with txc := (packElements s k sc).txc }
      draws := s.draws + (packElements s k sc).reads
      varAnswers := s.varAnswers.drop (packElements s k sc).reads } := by
  rw [exec, execPduPack, h]
  rfl

/-! ## The payload before the CRC -/

/-- The raw value an element deposits after the elements that gave `acc` (R213). -/
def elementRaw (s : State) (k : Byte) (acc : PackAcc) : Element → Word
  | .field e => c6Enc (s.oobDraw acc.reads) (s.varRead acc.reads k e.var) e
  | .counter e => nextCount acc.txc e.modulus
  | .crc8 _ => 0#32

/-- The raw values the elements of a list deposit, in order (R213). -/
def packRaws (s : State) (k : Byte) : PackAcc → List Element → List Word
  | _, [] => []
  | acc, e :: l => elementRaw s k acc e :: packRaws s k (packElement s k acc e) l

theorem length_packRaws (s : State) (k : Byte) (acc : PackAcc) (l : List Element) :
    (packRaws s k acc l).length = l.length := by
  induction l generalizing acc with
  | nil => rfl
  | cons e l ih => rw [packRaws, List.length_cons, List.length_cons, ih]

theorem getElem?_packRaws {s : State} {k : Byte} {l : List Element} {m : Nat} {e : Element} (acc : PackAcc)
    (h : l[m]? = some e) :
    (packRaws s k acc l)[m]? = some (elementRaw s k ((l.take m).foldl (packElement s k) acc) e) := by
  induction l generalizing acc m with
  | nil => cases h
  | cons d l ih =>
    cases m with
    | zero =>
      cases h
      rfl
    | succ m => rw [packRaws, List.getElem?_cons_succ, ih _ h, List.take_succ_cons, List.foldl_cons]

/-- What packing PDU `k` starts from (R213). -/
def packStart (s : State) (k : Byte) : PackAcc := { payload := 0#64, txc := (s.pdu k.toNat).txc, reads := 0 }

theorem packElements_eq_foldl (s : State) (k : Byte) (sc : Schema) :
    packElements s k sc = sc.elems.foldl (packElement s k) (packStart s k) := rfl

/-- A field's raw value comes from the read numbered by the fields before it. -/
theorem getElem?_packRaws_field {s : State} {k : Byte} {l : List Element} {m : Nat} {e : PduField}
    (h : l[m]? = some (.field e)) :
    ∃ draw : Word, (packRaws s k (packStart s k) l)[m]? =
      some (c6Enc draw (s.varRead ((l.take m).filter isFieldElement).length k e.var) e) := by
  refine ⟨s.oobDraw ((l.take m).filter isFieldElement).length, ?_⟩
  rw [getElem?_packRaws _ h, elementRaw, foldl_packElement_reads, packStart, Nat.zero_add]

/-- The counter's raw value is the new transmit counter. -/
theorem getElem?_packRaws_counter {s : State} {k : Byte} {sc : Schema} (hwf : sc.wf = true) {m : Nat} {e : PduCounter}
    (h : sc.elems[m]? = some (.counter e)) :
    (packRaws s k (packStart s k) sc.elems)[m]? = some (packElements s k sc).txc := by
  obtain ⟨hc, hbefore⟩ := Schema.counter?_of_getElem? hwf h
  rw [getElem?_packRaws _ h, elementRaw, foldl_packElement_txc s k hbefore, packElements_txc_of_some s k hwf hc]
  rfl

theorem getLsbD_packElement (s : State) (k : Byte) (acc : PackAcc) {e : Element} (hfit : fieldFits (elementRange e))
    {q : Nat} (hq : q < 64) :
    (packElement s k acc e).payload.getLsbD q =
      (acc.payload.getLsbD q || bitDeposited (elementRange e) (elementRaw s k acc e) q) := by
  cases e with
  | field e => exact getLsbD_putOr (wf_of_fieldFits hfit) _ _ hq
  | counter e => exact getLsbD_putOr (wf_of_fieldFits hfit) _ _ hq
  | crc8 e => simp [packElement, elementRaw, bitDeposited]

/-- Packing a list ORs each element's bits into what was there before. -/
theorem getLsbD_foldl_packElement {s : State} {k : Byte} {l : List Element}
    (hfit : ∀ e ∈ l, fieldFits (elementRange e)) (acc : PackAcc) {q : Nat} (hq : q < 64) :
    (l.foldl (packElement s k) acc).payload.getLsbD q =
      (acc.payload.getLsbD q || (l.zip (packRaws s k acc l)).any fun x => bitDeposited (elementRange x.1) x.2 q) := by
  induction l generalizing acc with
  | nil => simp
  | cons e l ih =>
    obtain ⟨he, hl⟩ := List.forall_mem_cons.mp hfit
    rw [List.foldl_cons, ih hl, getLsbD_packElement s k acc he hq, packRaws, List.zip_cons_cons, List.any_cons,
      Bool.or_assoc]

/-- R213: each bit of the payload before the CRC is the OR of what the elements deposit there. -/
theorem getLsbD_packElements {s : State} {k : Byte} {sc : Schema} (hwf : sc.wf = true) {q : Nat} (hq : q < 64) :
    (packElements s k sc).payload.getLsbD q =
      (sc.elems.zip (packRaws s k (packStart s k) sc.elems)).any fun x => bitDeposited (elementRange x.1) x.2 q := by
  rw [packElements_eq_foldl, getLsbD_foldl_packElement (fun _ he => Schema.fieldFits_of_mem hwf he) _ hq, packStart,
    BitVec.getLsbD_zero, Bool.false_or]

/-! ## The counter -/

/-- R213: the new transmit counter, as a number. -/
theorem toNat_packElements_txc {s : State} {k : Byte} {sc : Schema} {e : PduCounter} (hwf : sc.wf = true)
    (he : sc.counter? = some e) :
    (packElements s k sc).txc.toNat = ((s.pdu k.toNat).txc.toNat + 1) % e.modulus.toNat := by
  obtain ⟨hmod, -⟩ := Schema.elems_of_counter?_eq_some hwf he
  have hlt : ((s.pdu k.toNat).txc.toNat + 1) % e.modulus.toNat < e.modulus.toNat := Nat.mod_lt _ hmod
  rw [packElements_txc_of_some s k hwf he, nextCount, BitVec.toNat_ofNat]
  exact Nat.mod_eq_of_lt (Nat.lt_trans hlt e.modulus.isLt)

theorem State.pdu_of_pdus_set_same {s t : State} {k : Nat} {d : PduState} (h : t.pdus = s.pdus.set k d)
    (hk : k < s.pdus.length) : t.pdu k = d := by
  rw [State.pdu, h, List.getElem?_set_self hk, Option.getD_some]

/-- From a counter of `a mod modulus`, `m` PDU.PACK commands count to `(a + m) mod modulus` (R223). -/
theorem packTimes_counts {k : Byte} {sc : Schema} {e : PduCounter} (hwf : sc.wf = true) (he : sc.counter? = some e)
    (m : Nat) {a : Nat} {s : State} (hsc : s.cfg.schemas[k.toNat]? = some sc) (hk : k.toNat < s.pdus.length)
    (ha : (s.pdu k.toNat).txc.toNat = a % e.modulus.toNat) :
    ∃ t, packTimes k m s = some t ∧ (t.pdu k.toNat).txc.toNat = (a + m) % e.modulus.toNat := by
  induction m generalizing a s with
  | zero => exact ⟨s, rfl, ha⟩
  | succ m ih =>
    rw [packTimes, exec_pduPack_of_schema hsc, ← Nat.add_assoc, Nat.add_right_comm]
    refine ih hsc (by simpa using hk) ?_
    rw [State.pdu_of_pdus_set_same rfl hk, toNat_packElements_txc hwf he, ha, Nat.mod_add_mod]

/-- Settles O55, by counting from any value below the modulus. -/
theorem counterLaw : Obligations.CounterLaw := by
  intro k s sc e m hsc hwf he hk hzero
  have hcount := packTimes_counts hwf he m (a := 0) hsc hk (by rw [hzero, Nat.zero_mod]; rfl)
  rwa [Nat.zero_add] at hcount

/-! ## The payload with its CRC -/

theorem sealPayload_of_none {sc : Schema} (h : sc.crc? = none) (k : Nat) (p : Payload) : sealPayload k sc p = p := by
  rw [sealPayload, h]

theorem sealPayload_of_some {sc : Schema} {e : PduCrc} (h : sc.crc? = some e) (k : Nat) (p : Payload) :
    sealPayload k sc p = depositCrc k p e := by
  rw [sealPayload, h]

/-- Settles O54: the raw values are those of `packRaws`, the payload is sealed over them. -/
theorem packBuildsThePayload : Obligations.PackBuildsThePayload := by
  refine fun k s => ⟨fun hk => exec_pduPack_of_none (List.getElem?_eq_none hk), fun sc hsc hwf => ?_⟩
  exact ⟨_, _, _, packRaws s k (packStart s k) sc.elems, _, _, exec_pduPack_of_schema hsc,
    packElements_txc_of_none s k, fun e he => toNat_packElements_txc hwf he, length_packRaws _ _ _ _,
    fun m e hm => getElem?_packRaws_field hm, fun m e hm => getElem?_packRaws_counter hwf hm,
    fun m e hm => getElem?_packRaws _ hm, fun q hq => getLsbD_packElements hwf hq,
    fun hc => sealPayload_of_none hc _ _, fun e he => sealPayload_of_some he _ _⟩

end Machine
end Sys2Proof
end

section
/-! PDU.UNPACK: the verdict, which a sealed payload meets, and what is written; PDU.STAT
(spec/43_pdu_crc8.md R214, R215, R220). -/

namespace Sys2Proof.Machine

/-! ## The verdict -/

theorem unpackVerdict_of_none {sc : Schema} (h : sc.crc? = none) (k : Nat) (p : Payload) :
    unpackVerdict k p sc = true := by
  rw [unpackVerdict, h]

theorem unpackVerdict_of_some {sc : Schema} {e : PduCrc} (h : sc.crc? = some e) (k : Nat) (p : Payload) :
    unpackVerdict k p sc = crcMatches k p e := by
  rw [unpackVerdict, h]

/-- The last value written to a field is the one it holds (R104). -/
theorem insertField_insertField {f : FieldRef} (hf : f.wf = true) (p : Payload) (v w : Word) :
    insertField (insertField p f v) f w = insertField p f w := by
  refine BitVec.eq_of_getLsbD_eq fun q hq => ?_
  rw [getLsbD_insertField hf _ _ hq, getLsbD_insertField hf _ _ hq, getLsbD_insertField hf _ _ hq]
  split <;> rfl

/-- A deposited CRC matches: zeroing its range gives back the payload it was computed over (R213, R214). -/
theorem crcMatches_depositCrc {e : PduCrc} (hfit : fieldFits (leField e.bpos e.width)) (k : Nat) (p : Payload) :
    crcMatches k (depositCrc k p e) e = true := by
  have hf := wf_of_fieldFits hfit
  rw [crcMatches, depositCrc, insertField_insertField hf, insertField_insertField hf, getField_insertField hfit]
  exact decide_eq_true rfl

theorem unpackVerdict_sealPayload {sc : Schema} (hwf : sc.wf = true) (k : Nat) (p : Payload) :
    unpackVerdict k (sealPayload k sc p) sc = true := by
  cases h : sc.crc? with
  | none => exact unpackVerdict_of_none h k _
  | some e =>
    rw [unpackVerdict_of_some h, sealPayload_of_some h, crcMatches_depositCrc (Schema.fieldFits_of_crc? hwf h)]

theorem crcMatches_iff {e : PduCrc} (hw : e.width ≤ 32) (k : Nat) (p : Payload) :
    crcMatches k p e = true ↔
      (getField p (leField e.bpos e.width)).toNat =
        (crc8Elem k (insertField p (leField e.bpos e.width) 0#32) e).toNat % 2 ^ e.width := by
  rw [crcMatches, decide_eq_true_iff, ← BitVec.toNat_inj, toNat_lowBits hw, BitVec.toNat_setWidth_of_le (by decide)]

theorem unpackVerdict_iff {sc : Schema} (hwf : sc.wf = true) (k : Nat) (p : Payload) :
    unpackVerdict k p sc = true ↔ ∀ e, sc.crc? = some e →
      (getField p (leField e.bpos e.width)).toNat =
        (crc8Elem k (insertField p (leField e.bpos e.width) 0#32) e).toNat % 2 ^ e.width := by
  cases h : sc.crc? with
  | none => exact iff_of_true (unpackVerdict_of_none h k p) nofun
  | some e =>
    obtain ⟨-, hw, -⟩ := Schema.fieldFits_of_crc? hwf h
    rw [unpackVerdict_of_some h, crcMatches_iff hw]
    simp

/-! ## The received counter -/

/-- One element of `receivedCount` (R214). -/
def receiveElement (p : Payload) (c : Word) : Element → Word
  | .counter e => getField p (leField e.bpos e.width)
  | .field _ => c
  | .crc8 _ => c

theorem receivedCount_eq_foldl (p : Payload) (sc : Schema) (old : Word) :
    receivedCount p sc old = sc.elems.foldl (receiveElement p) old :=
  List.foldl_ext _ _ _ fun _ e _ => by cases e <;> rfl

theorem foldl_receiveElement {l : List Element} (h : ∀ e ∈ l, e.isCounter = false) (p : Payload) (c : Word) :
    l.foldl (receiveElement p) c = c := by
  induction l with
  | nil => rfl
  | cons e l ih =>
    obtain ⟨he, hl⟩ := List.forall_mem_cons.mp h
    cases e with
    | counter _ => cases he
    | field _ => exact ih hl
    | crc8 _ => exact ih hl

/-- Unpacking a schema with a counter takes the received one (R214). -/
theorem receivedCount_of_some {sc : Schema} {e : PduCounter} (hwf : sc.wf = true) (h : sc.counter? = some e)
    (p : Payload) (old : Word) : receivedCount p sc old = getField p (leField e.bpos e.width) := by
  obtain ⟨-, x, y, helems, -, hy⟩ := Schema.elems_of_counter?_eq_some hwf h
  rw [receivedCount_eq_foldl, helems, List.foldl_append, List.foldl_cons, foldl_receiveElement hy, receiveElement]

/-! ## What PDU.UNPACK and PDU.STAT answer -/

theorem exec_pduUnpack_of_none {k : Byte} {s : State} (h : s.cfg.schemas[k.toNat]? = none) (p : Payload) :
    exec (.pduUnpack k p) s = .next { s with rc := eIndex } := by
  rw [exec, execPduUnpack, h]
  rfl

/-- Whether an unpack writes the fields and the received counter: not where the gate stops a failing payload
(R214). -/
def unpackWrites (s : State) (k : Byte) (p : Payload) (sc : Schema) : Bool :=
  unpackVerdict k.toNat p sc || !s.cfg.pduUnpackGated

theorem exec_pduUnpack_of_schema {k : Byte} {s : State} {sc : Schema} (h : s.cfg.schemas[k.toNat]? = some sc)
    (p : Payload) :
    exec (.pduUnpack k p) s = .next { s with
      ok := unpackVerdict k.toNat p sc
      rc := if unpackVerdict k.toNat p sc then 1#32 else 0#32
      events := s.events ++ if unpackWrites s k p sc then fieldWrites k p sc else []
      pdus := s.pdus.set k.toNat
        { txc := (s.pdu k.toNat).txc
          rxc := if unpackWrites s k p sc then receivedCount p sc (s.pdu k.toNat).rxc else (s.pdu k.toNat).rxc
          crcOk := unpackVerdict k.toNat p sc } } := by
  rw [exec, execPduUnpack, h]
  rfl

/-- Settles O56: the seal is what the verdict looks for. -/
theorem packedPayloadsValidate : Obligations.PackedPayloadsValidate := by
  intro k s sc hsc hwf
  refine ⟨_, exec_pduPack_of_schema hsc, fun u hu => ⟨_, exec_pduUnpack_of_schema (hu ▸ hsc) _, ?_, ?_⟩⟩
  · exact unpackVerdict_sealPayload hwf _ _
  · exact if_pos (unpackVerdict_sealPayload hwf _ _)

/-- Settles O57, by the verdict and by whether the gate lets the payload through. -/
theorem unpackValidatesAndWrites : Obligations.UnpackValidatesAndWrites := by
  refine fun k p s => ⟨fun hk => exec_pduUnpack_of_none (List.getElem?_eq_none hk) p, fun sc hsc hwf => ?_⟩
  refine ⟨_, _, _, exec_pduUnpack_of_schema hsc p, unpackVerdict_iff hwf _ p, fun hbad hgate => ?_, fun hgo => ?_⟩
  · have hstop : unpackWrites s k p sc = false := by rw [unpackWrites, hbad, hgate]; rfl
    exact ⟨if_neg (ne_true_of_eq_false hstop), if_neg (ne_true_of_eq_false hstop)⟩
  · have hwrite : unpackWrites s k p sc = true := by
      obtain hok | hopen := hgo
      · rw [unpackWrites, hok, Bool.true_or]
      · rw [unpackWrites, hopen, Bool.not_false, Bool.or_true]
    rw [if_pos hwrite, if_pos hwrite]
    refine ⟨?_, fun hc => receivedCount_of_none hc p _, fun e he => receivedCount_of_some hwf he p _⟩
    exact List.filterMap_congr fun e _ => by cases e <;> rfl

/-- Settles O58: `PDU.STAT` branches on the index alone. -/
theorem statReadback : Obligations.StatReadback :=
  fun _ _ => ⟨fun h => if_pos h, fun h => if_neg (Nat.not_le.mpr h)⟩

end Sys2Proof.Machine
end

section
/-! How a command ends: it always completes, with its results, an error code or a protocol fault; and what the step
answers where no command runs (spec/60_exceptions.md R250 to R255). -/

namespace Sys2Proof.Machine

/-! ## Every command completes -/

theorem exec_addCmd_completes (t : Table) (b : Binding) (s : State) : ∃ u, exec (addCmd t b) s = .next u := by
  cases ha : s.add t b with
  | fault r => exact ⟨_, exec_addCmd_of_fault ha⟩
  | error code => exact ⟨_, exec_addCmd_of_error ha⟩
  | done u => exact ⟨_, exec_addCmd_of_done ha⟩

/-- Settles O12: each branch of each command answers a next state. -/
theorem everyCommandCompletes : Obligations.EveryCommandCompletes := by
  intro i s
  cases i with
  | fxGet | fxOr | fxIns | fxDec | fxEnc | crc8Calc | mapRereg => exact ⟨_, rfl⟩
  | mapAddrx b => exact exec_addCmd_completes .rx b s
  | mapAddtx b => exact exec_addCmd_completes .tx b s
  | mapRde | mapRds | mapClr | pduPack | pduUnpack | pduStat | frameTxall =>
    simp only [exec, execMapRde, execMapRds, execMapClr, execPduPack, execPduUnpack, execPduStat, execFrameTxall]
    split <;> exact ⟨_, rfl⟩
  | frameRx | mapRm =>
    simp only [exec, execFrameRx, execMapRm]
    split
    · exact ⟨_, rfl⟩
    · split <;> exact ⟨_, rfl⟩

/-! ## The three ways a command ends -/

/-- `t` is `s` with a protocol fault raised, or with `RC` alone written, or holds in `RC` the count or verdict of a
success, which is not negative (R250, R251). -/
def State.Ends (s t : State) : Prop :=
  (∃ r, t = s.raise r) ∨ (∃ code, t = s.setRc code) ∨ t.rc.msb = false

theorem State.ends_raise (s : State) (r : PfReason) : s.Ends (s.raise r) := .inl ⟨r, rfl⟩

theorem State.ends_setRc (s : State) (code : Word) : s.Ends (s.setRc code) := .inr (.inl ⟨code, rfl⟩)

theorem State.ends_of_rc {s t : State} {n : Nat} (hrc : t.rc = BitVec.ofNat 32 n) (hn : n ≤ 65535) : s.Ends t := by
  refine .inr (.inr ?_)
  rw [hrc, BitVec.msb_eq_false_iff_two_mul_lt, BitVec.toNat_ofNat]
  omega

theorem State.MapInv.count_le_65535 {s : State} (h : s.MapInv) (t : Table) : s.count t ≤ 65535 := by
  obtain ⟨-, hmax, -⟩ := Params.wf_iff.mp (State.mapOn_of_mapInv h t).wf
  exact (h.count_le t).trans hmax

theorem State.MapInv.length_slotsOf_le {s : State} (h : s.MapInv) (e : IdEntry) : (s.slotsOf e).length ≤ 254 :=
  (s.walk_length_le _ _).trans (Params.maxItems_le (State.mapOn_of_mapInv h .tx).wf)

theorem exec_addCmd_ends {s u : State} {t : Table} {b : Binding} (hs : s.MapInv)
    (h : exec (addCmd t b) s = .next u) : s.Ends u := by
  cases ha : s.add t b with
  | fault r =>
    cases (exec_addCmd_of_fault ha).symm.trans h
    exact s.ends_raise r
  | error code =>
    cases (exec_addCmd_of_error ha).symm.trans h
    exact s.ends_setRc code
  | done w =>
    have hcount := (exec_addCmd_keeps_mapInv hs h).count_le_65535 t
    cases (exec_addCmd_of_done ha).symm.trans h
    exact State.ends_of_rc rfl hcount

/-- R250: how each command ends, where the map is one of R31. -/
theorem exec_ends {i : Instr} {s t : State} (hs : s.MapInv) (h : exec i s = .next t) : s.Ends t := by
  cases i with
  | fxGet | fxOr | fxIns | fxDec | fxEnc | crc8Calc =>
    cases h
    exact State.ends_of_rc (n := 0) rfl (by decide)
  | mapAddrx b => exact exec_addCmd_ends (t := .rx) hs h
  | mapAddtx b => exact exec_addCmd_ends (t := .tx) hs h
  | mapRereg =>
    cases h
    exact State.ends_of_rc rfl (hs.count_le_65535 .rx)
  | mapClr =>
    simp only [exec, execMapClr] at h
    split at h <;> cases h
    · exact s.ends_raise _
    · exact State.ends_of_rc (n := 0) rfl (by decide)
  | mapRm =>
    simp only [exec, execMapRm] at h
    split at h
    · cases h
      exact s.ends_raise _
    · split at h <;> cases h
      · exact s.ends_setRc _
      · exact State.ends_of_rc (n := 1) rfl (by decide)
  | mapRde | mapRds | pduPack | pduStat =>
    simp only [exec, execMapRde, execMapRds, execPduPack, execPduStat] at h
    split at h <;> cases h
    · exact s.ends_setRc _
    · exact State.ends_of_rc (n := 0) rfl (by decide)
  | pduUnpack k p =>
    cases hsc : s.cfg.schemas[k.toNat]? with
    | none =>
      cases (exec_pduUnpack_of_none hsc p).symm.trans h
      exact s.ends_setRc _
    | some sc =>
      cases (exec_pduUnpack_of_schema hsc p).symm.trans h
      refine State.ends_of_rc (n := (unpackVerdict k.toNat p sc).toNat) ?_ ((Bool.toNat_le _).trans (by decide))
      dsimp only
      cases unpackVerdict k.toNat p sc <;> rfl
  | frameTxall =>
    simp only [exec, execFrameTxall] at h
    split at h <;> cases h
    · exact s.ends_setRc _
    · exact State.ends_of_rc rfl (hs.count_le_65535 .tx)
  | frameRx =>
    simp only [exec, execFrameRx] at h
    split at h
    · cases h
      exact s.ends_setRc _
    · split at h <;> cases h
      · exact s.ends_setRc _
      · exact State.ends_of_rc rfl ((hs.length_slotsOf_le _).trans (by decide))

/-- R251: every error code is negative. -/
theorem msb_of_error :
    ∀ v ∈ [eInvalidId, eInvalidOfs, eInvalidLen, eMaxMessages, eMaxItems, eIndex], v.msb = true := by
  simp [eInvalidId, eInvalidOfs, eInvalidLen, eMaxMessages, eMaxItems, eIndex, BitVec.msb_eq_decide]

/-- Settles O13: a fault sets `pf`, and no success holds an error code. -/
theorem errorsWriteOnlyRc : Obligations.ErrorsWriteOnlyRc := by
  intro i s t hinv h hpf herror
  obtain ⟨r, rfl⟩ | ⟨code, rfl⟩ | hrc := exec_ends hinv h
  · cases hpf
  · rfl
  · exact absurd (msb_of_error t.rc herror) (ne_true_of_eq_false hrc)

/-- Settles O53: each of the five commands looks at its index first. -/
theorem indexErrorsWriteOnlyRc : Obligations.IndexErrorsWriteOnlyRc := by
  refine ⟨fun t idx s h => if_pos h, fun idx s h => if_pos h, fun k p s h => ?_⟩
  have hnone : s.cfg.schemas[k.toNat]? = none := List.getElem?_eq_none h
  exact ⟨exec_pduPack_of_none hnone, exec_pduUnpack_of_none hnone p, if_pos h⟩

/-! ## Protocol faults -/

theorem State.add_of_paramRange {s : State} {t : Table} {b : Binding} (hb : s.saveBusy = false)
    (hp : s.cfg.paramLast ≤ b.param.toNat) : s.add t b = .fault .paramRange := by
  simp [State.add, hb, hp]

theorem exec_mutation_of_saveBusy {i : Instr} {s : State} (hm : Mutates i = true) (hb : s.saveBusy = true) :
    exec i s = .next (s.raise .mutateWhileSaving) := by
  cases i with
  | mapAddrx b => exact exec_addCmd_of_fault (t := .rx) (State.add_of_saveBusy hb)
  | mapAddtx b => exact exec_addCmd_of_fault (t := .tx) (State.add_of_saveBusy hb)
  | mapRm param => exact if_pos hb
  | mapClr => exact exec_mapClr_of_saveBusy hb
  | _ => cases hm

theorem step_of_stop {s : State} {f : Fault} (h : s.accept = .stop f) : step s = .fault f := by
  unfold step
  rw [h]

theorem State.accept_of_faulted {s : State} {cr : Record} {rest : List Input} (hwf : s.cfg.wf = true)
    (hpf : s.pf = true) (hi : s.inputs = .command cr :: rest) : s.accept = .stop (.protocolFault s.pfReason) := by
  simp [State.accept, hwf, hpf, hi]

/-- Settles O7: the save is looked at before the parameter, and a faulted block stops at a command. -/
theorem protocolFaults : Obligations.ProtocolFaults :=
  ⟨fun _ _ hm hb => exec_mutation_of_saveBusy hm hb,
    fun _ _ _ hb hp => exec_addCmd_of_fault (State.add_of_paramRange hb hp),
    fun _ _ _ hwf hpf hi => step_of_stop (State.accept_of_faulted hwf hpf hi)⟩

/-! ## Illegal opcodes -/

theorem toNat_mod_of_decode {cr : Record} {i : Instr} (h : decode cr = .command i) :
    cr.toNat % 256 = i.opcode.toNat := by
  obtain ⟨hop, -⟩ := decode_eq_command_iff.mp h
  rw [← hop]
  simp [bitsOf, BitVec.extractLsb'_toNat]

theorem State.takeCommand_of_illegal {s : State} {cr : Record} {op : Byte} (hd : decode cr = .illegalOpcode op) :
    s.takeCommand cr = .done (s.setRc eOpcode) := by
  simp [State.takeCommand, State.illegalOpcode, hd]

/-- Settles O4: every record that decodes to a command has one of the eighteen opcodes (R86). -/
theorem illegalOpcodeWritesOnlyRc : Obligations.IllegalOpcodeWritesOnlyRc := by
  intro s cr rest hwf hpf hi hop
  cases hd : decode cr with
  | command i =>
    rw [toNat_mod_of_decode hd] at hop
    cases i <;> simp [Instr.opcode] at hop
  | illegalOpcode op =>
    exact step_of_done ((State.accept_of_command hwf hpf hi).trans (State.takeCommand_of_illegal hd))

end Sys2Proof.Machine
end

section
/-! The reset event of spec/70_reset_and_hazards.md (R280): the fields of the table of R43 take their reset values. -/

namespace Sys2Proof.Machine

theorem State.entry_afterReset (s : State) (t : Table) (i : Nat) :
    s.afterReset.entry t i = (State.resetWith s.cfg).entry t i := by
  cases t <;> rfl

theorem State.accept_of_reset {s : State} {rest : List Input} (hwf : s.cfg.wf = true)
    (hi : s.inputs = .reset :: rest) : s.accept = .done (s.setInputs rest).afterReset := by
  simp [State.accept, hwf, hi]

/-- Settles O9: the step answers the state after reset, whose values are those O10 gives for the configuration. -/
theorem resetEventClearsTheBlock : Obligations.ResetEventClearsTheBlock := by
  intro s rest hwf hi
  obtain ⟨hrc, hrv, hrf, hrp, hok, hentry, hfree, hsentinel, hpdu, hpf, hreason⟩ := resetValues s.cfg hwf
  refine ⟨(s.setInputs rest).afterReset, step_of_done (State.accept_of_reset hwf hi), hrc, hrv, hrf, hrp, hok,
    fun t i hlt => ?_, hfree, hsentinel, fun k hk => ?_, hpf, hreason, rfl, rfl, rfl, rfl⟩
  · rw [State.entry_afterReset]
    exact hentry t i hlt
  · have hat : (s.setInputs rest).afterReset.pdu k = PduState.atReset := hpdu k hk
    rw [hat]
    exact ⟨rfl, rfl, rfl⟩

end Sys2Proof.Machine
end
